-- ==== Sys2Proof/Word.lean ====
section
/-! DEFINITION. The value types of T3CTL: the number system `NUM` of rule R12 and the operation
code of rule R81. -/

namespace Sys2Proof

/-- Rule R12 (00_scope.md): the values of `NUM`. The default is the exact rational numbers
(decision D3); a finite number system's values are among them (`NumSystem` in Config.lean). -/
abbrev NUM := Rat

/-- Rule R81 (30_encoding.md): `op[3:0]`, the four bits that select the operation. -/
abbrev Opcode := BitVec 4

end Sys2Proof
end

