-- ==== Sys2Proof/Config.lean ====
section
/-! DEFINITION. The implementation parameters of 00_scope.md rules R6 to R10 and the model's free
values. The parameters are arguments of the model: `Params` is a legal assignment of all of them,
State carries one, no operation changes it, and a claim over every state is a claim over every
legal assignment (log entry 1). -/

namespace Sys2Proof

/-- The four arithmetic operations of rule R12 (00_scope.md). -/
inductive ArithOp where
  | add | sub | mul | div
deriving DecidableEq, Repr

/-- Rule R9: the parameter `NUM`. `exact` is the default, the rational numbers. `finite lo hi` is
any number system of rules R112 and R113 (40_pid_core.md) whose values lie in `[lo, hi]`: an
operation whose result leaves the range overflows, and one whose result stays in it answers what
that system rounds it to (log entry 3). -/
inductive NumSystem where
  | exact
  | finite (lo hi : NUM)
deriving DecidableEq, Repr

/-- Rules R12 and R88: whether a number can be a value of the number system (in range). -/
def NumSystem.holds : NumSystem → NUM → Bool
  | .exact, _ => true
  | .finite lo hi, v => decide (lo ≤ v) && decide (v ≤ hi)

namespace Config

/-- Free value (rule R112, U14): what a finite number system answers for an operation whose result
is in range. Nothing is assumed of it but that it is in range (log entry 3). -/
opaque roundOp : ArithOp → NUM → NUM → NUM

/-- Free value (rule R178): the setpoint input's answers, once the answers listed in State are used
up (log entry 5). -/
opaque freePot : Nat → NUM

/-- Free value (rule R177): the rotation sensor's answers, likewise (log entry 5). -/
opaque freeRpm : Nat → NUM

/-- Free value (rule R176): the distance sensor's answers, likewise; `none` is a timeout
(log entry 5). -/
opaque freeDistance : Nat → Option NUM

/-- Free value (rules R36, R50, U11): the unspecified contents of the measurement buffer after
RESET (log entry 6). -/
opaque freeSample : Nat → NUM

end Config

/-- The parameters of rules R6 (PID constants), R7 (scheduler constants), R8 (collaborator
constants) and R9 (structural), and the model's switch `STANDALONE_PID` of rule R90. -/
structure Profile where
  /-- `NUM` (R9). -/
  num : NumSystem
  /-- `MAX_INTEGRAL`, alias `MAX_INTEGRAL_ERROR` (R6). -/
  maxIntegral : NUM
  /-- `MIN_OUTPUT`, alias `MIN_PID_OUTPUT` (R6). -/
  minOutput : NUM
  /-- `MAX_OUTPUT`, alias `MAX_PID_OUTPUT` (R6). -/
  maxOutput : NUM
  /-- `PID_RATE` (R7). -/
  pidRate : Nat
  /-- `MEASUREMENT_RATE` (R7). -/
  measurementRate : Nat
  /-- `DISPLAY_RATE` (R7). -/
  displayRate : Nat
  /-- `N`, the capacity of the measurement buffer (R7). -/
  n : Nat
  /-- `THRESHOLD` (R7). -/
  threshold : NUM
  /-- `MAX_RPM` (R7). -/
  maxRpm : NUM
  /-- `HOLD_TICKS` (R7). -/
  holdTicks : Nat
  /-- `ERROR_SENTINEL` (R8). -/
  errorSentinel : NUM
  /-- `DIST_MIN` (R8). -/
  distMin : NUM
  /-- `DIST_MAX` (R8). -/
  distMax : NUM
  /-- `STOP_TERMINAL` (R9). -/
  stopTerminal : Bool
  /-- `STANDALONE_PID` (R90): whether the controller is built alone. -/
  standalonePid : Bool
deriving DecidableEq, Repr

/-- The parameters that rules R6 to R8 type as `NUM`, with the two other values clamp needs: 0 and
`-MAX_INTEGRAL`. -/
def Profile.numbers (p : Profile) : List NUM :=
  [0, p.maxIntegral, -p.maxIntegral, p.minOutput, p.maxOutput, p.threshold, p.maxRpm,
    p.errorSentinel, p.distMin, p.distMax]

/-- Rule R10: the legal parameter values. The last clause is the `NUM` type of rules R6 to R8 for a
finite number system (log entry 3). -/
abbrev Profile.Legal (p : Profile) : Prop :=
  1 ≤ p.pidRate ∧ 1 ≤ p.measurementRate ∧ 2 ≤ p.displayRate ∧ 1 ≤ p.n ∧ 1 ≤ p.holdTicks ∧
  0 ≤ p.maxIntegral ∧ p.minOutput ≤ p.maxOutput ∧ 0 ≤ p.minOutput ∧ p.maxOutput ≤ 100 ∧
  p.distMin ≤ p.distMax ∧ p.numbers.all p.num.holds = true

/-- An instance's parameters: a profile that is legal (R10). An illegal one cannot be formed. -/
structure Params extends Profile where
  legal : toProfile.Legal
deriving DecidableEq, Repr

/-- Rule R10: "The model refuses (does not build) an instance that breaks any of" the legal values. -/
def Profile.build (p : Profile) : Option Params :=
  if h : p.Legal then some ⟨p, h⟩ else none

namespace Config

/-- The spec's test profile `TP` (95_test_vectors.md section 0). -/
def testProfile : Profile where
  num := .exact
  maxIntegral := 100
  minOutput := 0
  maxOutput := 100
  pidRate := 2
  measurementRate := 2
  displayRate := 4
  n := 3
  threshold := 10
  maxRpm := 6500
  holdTicks := 3
  errorSentinel := -1
  distMin := 2
  distMax := 400
  stopTerminal := false
  standalonePid := false

/-- `TP` is legal ("`TP` satisfies 00_scope.md rule R10", 95_test_vectors.md section 0). -/
theorem testProfile_legal : testProfile.Legal := by decide +kernel

/-- The instance that `State.reset` is built with (log entry 2). -/
def testParams : Params := ⟨testProfile, testProfile_legal⟩

end Config

end Sys2Proof
end

