-- ==== Sys2Proof/Syntax.lean ====
section
/-! DEFINITION. The syntax of T3CTL: its twelve operations (rule R82), the operation word and its
formats (R81), the tuning channel's lines (R86), and what the environment hands the block. -/

namespace Sys2Proof

/-- The twelve operations of rule R82 (30_encoding.md) and `opcode_table.json`. -/
inductive Instr where
  /-- `INIT kp, ki, kd, sp` (R101). -/
  | init (kp ki kd sp : NUM)
  /-- `SET_KP v` (R103). -/
  | setKp (v : NUM)
  /-- `SET_KI v` (R104). -/
  | setKi (v : NUM)
  /-- `SET_KD v` (R105). -/
  | setKd (v : NUM)
  /-- `SET_SP v` (R102). -/
  | setSp (v : NUM)
  /-- `UPDATE m -> out` (R106). -/
  | update (m : NUM)
  /-- `TICK` (R131). -/
  | tick
  /-- `STOP_SET` (R171). -/
  | stopSet
  /-- `STOP_CLR` (R172). -/
  | stopClr
  /-- `OBJ_SET` (R173). -/
  | objSet
  /-- `OBJ_CLR` (R174). -/
  | objClr
  /-- `RESET` (R220). -/
  | reset
deriving DecidableEq, Repr

/-- The three operand formats of rule R81. -/
inductive Format where
  /-- `{op}` -/
  | Z
  /-- `{op, a}` -/
  | V
  /-- `{op, a, b, c, d}` -/
  | G
deriving DecidableEq, Repr

/-- Rule R81: "their number is fixed by `op`". -/
def Format.operandCount : Format → Nat
  | .Z => 0
  | .V => 1
  | .G => 4

/-- A number as it arrives at the boundary: a rational, or one of the non-finite operands (an
infinity, a not-a-number) that rules R88 and R113 refuse there. -/
inductive Operand where
  | num (v : NUM)
  | nonFinite
deriving DecidableEq, Repr

/-- Rule R81: an operation word `{op, operands}`. -/
structure OpWord where
  op : Opcode
  operands : List Operand
deriving DecidableEq, Repr

/-- One piece of a line of the tuning channel, as the UART glue splits it (R86; the characters
themselves are out of scope, R4): a word, or a value. -/
inductive Token where
  | text (s : String)
  | value (v : Operand)
deriving DecidableEq, Repr

/-- What the environment hands the block: an operation word (R82), or a line of the tuning channel
(R86). -/
inductive Arrival where
  | word (w : OpWord)
  | line (tokens : List Token)
deriving DecidableEq, Repr

/-- The reasons of `Rejected(reason)` (R84, R85, R88, R90). -/
inductive RejectReason where
  | unknownOperation
  | malformed
  | unknownParameter
  | notOwner
deriving DecidableEq, Repr

end Sys2Proof
end

