-- ==== Sys2Proof/WellFormed.lean ====
section
/-! DEFINITION. When an operation is well formed: every operand is a value of the instance's number
system (rules R12, R81, R88). Words and lines are checked by Decode.lean. -/

namespace Sys2Proof

/-- The operands of an operation, in the order of rule R83. -/
def Instr.operands : Instr → List NUM
  | .init kp ki kd sp => [kp, ki, kd, sp]
  | .setKp v => [v]
  | .setKi v => [v]
  | .setKd v => [v]
  | .setSp v => [v]
  | .update m => [m]
  | .tick => []
  | .stopSet => []
  | .stopClr => []
  | .objSet => []
  | .objClr => []
  | .reset => []

/-- Rule R81: each operand is "one value of `NUM`". Under `NumSystem.exact` every operation is well
formed. -/
def Instr.wf (num : NumSystem) (i : Instr) : Bool := i.operands.all num.holds

end Sys2Proof
end

