-- ==== Sys2Proof/Decode.lean ====
section
/-! DEFINITION. Decoding an operation word (rules R81 to R85) and a line of the tuning channel
(R86 to R88), total and rejecting by name; then the encoder, written from the same table. -/

namespace Sys2Proof

/-- The opcode map of rule R82: the format of each `op`; `0x0`, `0x7`, `0xD` and `0xE` are reserved
(R85). -/
def formatOf (op : Opcode) : Option Format :=
  match op.toNat with
  | 0x1 => some .G
  | 0x2 => some .V
  | 0x3 => some .V
  | 0x4 => some .V
  | 0x5 => some .V
  | 0x6 => some .V
  | 0x8 => some .Z
  | 0x9 => some .Z
  | 0xA => some .Z
  | 0xB => some .Z
  | 0xC => some .Z
  | 0xF => some .Z
  | _ => none

/-- The operation an `op` and its operands name (R82), operands "in the order kp, ki, kd, setpoint"
and "taken as they stand" (R83); none where the count is not the format's. -/
def assemble (op : Opcode) (operands : List NUM) : Option Instr :=
  match op.toNat, operands with
  | 0x1, [a, b, c, d] => some (.init a b c d)
  | 0x2, [a] => some (.setKp a)
  | 0x3, [a] => some (.setKi a)
  | 0x4, [a] => some (.setKd a)
  | 0x5, [a] => some (.setSp a)
  | 0x6, [a] => some (.update a)
  | 0x8, [] => some .tick
  | 0x9, [] => some .stopSet
  | 0xA, [] => some .stopClr
  | 0xB, [] => some .objSet
  | 0xC, [] => some .objClr
  | 0xF, [] => some .reset
  | _, _ => none

/-- A number at the boundary: none where `NUM` cannot represent it, "out of range, not a number,
infinite" (R88). -/
def readOperand (num : NumSystem) : Operand → Option NUM
  | .num v => if num.holds v then some v else none
  | .nonFinite => none

/-- All operands of a word; none where one of them is refused. -/
def readOperands (num : NumSystem) : List Operand → Option (List NUM)
  | [] => some []
  | x :: xs =>
    match readOperand num x, readOperands num xs with
    | some v, some vs => some (v :: vs)
    | _, _ => none

/-- Rule R85: a reserved `op` is `UnknownOperation`; a word with too few or too many operands, or
one that `NUM` cannot represent (R88), is `Malformed`. -/
def decode (num : NumSystem) (w : OpWord) : Except RejectReason Instr :=
  match formatOf w.op with
  | none => .error .unknownOperation
  | some _ =>
    match readOperands num w.operands with
    | none => .error .malformed
    | some vs =>
      match assemble w.op vs with
      | some i => .ok i
      | none => .error .malformed

/-- The four parameter names of rule R80, each the operation of rule R87. -/
def tuningOperation (param : String) (v : NUM) : Option Instr :=
  if param = "KP" then some (.setKp v)
  else if param = "KI" then some (.setKi v)
  else if param = "KD" then some (.setKd v)
  else if param = "SP" then some (.setSp v)
  else none

/-- Rules R86 to R88: the form is `SET <PARAM> <VALUE>`; a line of another form, or with a value
`NUM` cannot represent, is `Malformed`, and a parameter outside the four names is
`UnknownParameter`. -/
def decodeLine (num : NumSystem) : List Token → Except RejectReason Instr
  | [.text command, .text param, .value x] =>
    if command = "SET" then
      match readOperand num x with
      | none => .error .malformed
      | some v =>
        match tuningOperation param v with
        | some i => .ok i
        | none => .error .unknownParameter
    else .error .malformed
  | _ => .error .malformed

/-- The operation an arrival stands for, or why it is rejected. -/
def decodeArrival (num : NumSystem) : Arrival → Except RejectReason Instr
  | .word w => decode num w
  | .line tokens => decodeLine num tokens

/-- The `op` of each operation, from the table of rule R82. -/
def Instr.opcode : Instr → Opcode
  | .init _ _ _ _ => 0x1#4
  | .setKp _ => 0x2#4
  | .setKi _ => 0x3#4
  | .setKd _ => 0x4#4
  | .setSp _ => 0x5#4
  | .update _ => 0x6#4
  | .tick => 0x8#4
  | .stopSet => 0x9#4
  | .stopClr => 0xA#4
  | .objSet => 0xB#4
  | .objClr => 0xC#4
  | .reset => 0xF#4

/-- The word of an operation: `{op, operands}` (R81). -/
def encode (i : Instr) : OpWord := ⟨i.opcode, i.operands.map Operand.num⟩

/-- The word whose opcode is bits 3..0 of `w` and whose operands, which the table gives no bits,
are all zero (log entry 9). -/
def tableWord (w : Nat) : OpWord :=
  let op : Opcode := BitVec.ofNat 4 w
  ⟨op, List.replicate ((formatOf op).elim 0 Format.operandCount) (.num 0)⟩

/-- The instruction the decoder reads from a word numbered as `spec/opcode_table.json` numbers it:
the table gives a row only `op[3:0]` (bits 3..0), so the bits of the row's whole byte above them
are no part of the word (log entry 9). -/
def decodeTableWord (_nbits w : Nat) : Option Instr :=
  match decode .exact (tableWord w) with
  | .ok i => some i
  | .error _ => none

end Sys2Proof
end

