-- ==== Sys2Proof/Machine/State.lean ====
section
/-! DEFINITION. The state of T3CTL (10_state.md rules R20 to R50), the faults and refusals, and the
machine after reset. -/

namespace Sys2Proof.Machine

/-- A PID register: rule R27's *unwritten* condition ("it holds no value"), the reset value of all
six, or a written value. -/
inductive PidReg where
  | unwritten
  | written (v : NUM)
deriving DecidableEq, Repr

/-- The names of the six PID registers (R21 to R26), in the order in which rule R106 looks for one
that is unwritten. -/
inductive PidName where
  | kp
  | ki
  | kd
  | setpoint
  | integralAccumulator
  | previousError
deriving DecidableEq, Repr

/-- Rule R30: the branch the most recent TICK executed. -/
inductive Mode where
  | running
  | stopped
  | objectPresent
deriving DecidableEq, Repr

/-- Rule R46: the frame last sent to the display. -/
inductive Frame where
  | blank
  | stopped
  | progress (p : Nat)
  | result (m : NUM)
  | run (speed target : NUM)
deriving DecidableEq, Repr

/-- Rule R176: an answer of `distance_sensor.read()`, a distance in centimetres or a timeout (the
block then sees `ERROR_SENTINEL`). -/
inductive DistanceAnswer where
  | reading (d : NUM)
  | timeout
deriving DecidableEq, Repr

/-- Rule R84: how an operation ended. The fourth ending, `UseBeforeInit`, is a `Fault`. -/
inductive Response where
  | ok
  | okOut (out : Int)
  | rejected (reason : RejectReason)
deriving DecidableEq, Repr

/-- Rule R190: the four conditions of the source's error taxonomy. -/
inductive Condition where
  | sensorTimeout
  | malformed
  | unknownParameter
  | stopCondition
deriving DecidableEq, Repr

/-- The model's own trace of the last operation: its response (R84) and the conditions of rule R190
it met (log entry 7). It is no state of the block: no operation reads it. -/
structure Report where
  response : Response
  conditions : List Condition
deriving DecidableEq, Repr

/-- The measurement buffer, the block's only memory (R60): its elements from index 0 on. -/
abbrev Memory := List NUM

/-- The buffer holds exactly `N` elements (R36), so equal buffers are equal data. -/
def Memory.wf (n : Nat) (m : Memory) : Bool := m.length == n

/-- Rules R36, R50 and U11: a buffer of `n` unspecified elements, the free values from number
`start` on (log entry 6). -/
def freeBuffer (start n : Nat) : Memory := (List.range n).map fun i => Config.freeSample (start + i)

/-- The state. `params` holds the arguments of the model (R6 to R10), which no operation writes; the
registers of 10_state.md follow under the spec's names; the last group is the model's own: what the
environment has yet to supply, and the trace (INVENTORY.md, State). -/
structure State where
  params : Params
  /-- `kp` (R21). -/
  kp : PidReg
  /-- `ki` (R22). -/
  ki : PidReg
  /-- `kd` (R23). -/
  kd : PidReg
  /-- `setpoint` (R24). -/
  setpoint : PidReg
  /-- `integral_accumulator` (R25). -/
  integralAccumulator : PidReg
  /-- `previous_error` (R26). -/
  previousError : PidReg
  /-- `mode` (R30). -/
  mode : Mode
  /-- `pid_ticks` (R31). -/
  pidTicks : Nat
  /-- `measurement_ticks` (R32). -/
  measurementTicks : Nat
  /-- `display_ticks` (R33). -/
  displayTicks : Nat
  /-- `obj_display_ticks` (R34). -/
  objDisplayTicks : Nat
  /-- `hold_ticks` (R35). -/
  holdTicks : Nat
  /-- `measurement_buffer` (R36). -/
  measurementBuffer : Memory
  /-- `measurement_index` (R37). -/
  measurementIndex : Nat
  /-- `measurement_complete` (R38). -/
  measurementComplete : Bool
  /-- `pass_flag` (R39). -/
  passFlag : Bool
  /-- `tick_enable` (R40). -/
  tickEnable : Bool
  /-- `last_rpm` (R41). -/
  lastRpm : NUM
  /-- `stop_flag` (R42). -/
  stopFlag : Bool
  /-- `object_flag` (R43). -/
  objectFlag : Bool
  /-- `act_enable` (R44). -/
  actEnable : Bool
  /-- `act_power` (R45). -/
  actPower : Int
  /-- `disp` (R46). -/
  disp : Frame
  /-- What the environment hands the block next, in its order (R67). -/
  pending : List Arrival
  /-- The next answers of `PotRead` (R178). -/
  potAnswers : List NUM
  /-- The next answers of `RpmRead` (R177). -/
  rpmAnswers : List NUM
  /-- The next answers of `DistanceRead` (R176). -/
  distanceAnswers : List DistanceAnswer
  /-- How many free values have been drawn (log entries 5 and 6). -/
  freeDraws : Nat
  /-- The trace of the last operation (log entry 7). -/
  report : Report
deriving DecidableEq, Repr

/-- The model-level faults of rule R195; each stops the machine for good, with no state changed. -/
inductive Fault where
  /-- Raised by UPDATE, by the PID phase and by the RUNNING display phase of TICK, which read a PID
  register that is unwritten, the value R50 gives it at RESET (R27, R84, R106, R140, R141, R195). Safe:
  the spec itself has the model stop "in a fault state that is never cleared" (U8). -/
  | useBeforeInit (register : PidName)
  /-- Raised by UPDATE, the setpoint conversion and `Mean` of TICK when a result leaves the range of
  a finite `NUM` (R113). Safe, for the same reason; never raised under `NumSystem.exact`. -/
  | numOverflow
deriving DecidableEq, Repr

/-- What the model gives no meaning to. -/
inductive Refusal where
  /-- Raised by the dispatch alone, for an instruction without a meaning yet (none is left). Safe. -/
  | notModelled (mnemonic : String)
  /-- Raised by the PID phase of TICK: the answer of `PotRead` breaks its contract (R178, U7). Safe:
  the spec has the model refuse it. -/
  | potOutsideContract (p : NUM)
  /-- Raised by the PID phase of TICK: the answer of `RpmRead` is no value of `NUM` (R177), which can
  be so for a finite `NUM` only. Safe. -/
  | rpmOutsideContract (r : NUM)
  /-- Raised by the measurement phase of TICK: the answer of `DistanceRead` is a reading outside
  `[DIST_MIN, DIST_MAX]` (R176). Safe. -/
  | distanceOutsideContract (d : NUM)
  /-- Raised by the measurement phase of TICK: a buffer access outside `0 .. N-1`, "unreachable" by
  rule R61. Safe. -/
  | bufferIndexOutOfRange (index : Nat)
deriving DecidableEq, Repr

/-- The machine after RESET (R50), for the instance with the parameters `TP` (log entry 2), nothing
asked of it yet and no answer listed. The buffer is unspecified (log entry 6). -/
def State.reset : State where
  params := Config.testParams
  kp := .unwritten
  ki := .unwritten
  kd := .unwritten
  setpoint := .unwritten
  integralAccumulator := .unwritten
  previousError := .unwritten
  mode := .stopped
  pidTicks := 0
  measurementTicks := 0
  displayTicks := 0
  objDisplayTicks := 0
  holdTicks := 0
  measurementBuffer := freeBuffer 0 Config.testProfile.n
  measurementIndex := 0
  measurementComplete := false
  passFlag := false
  tickEnable := true
  lastRpm := 0
  stopFlag := false
  objectFlag := false
  actEnable := false
  actPower := 0
  disp := .blank
  pending := []
  potAnswers := []
  rpmAnswers := []
  distanceAnswers := []
  freeDraws := Config.testProfile.n
  report := ⟨.ok, []⟩

end Sys2Proof.Machine
end

