-- ==== Sys2Proof/Machine/Numeric.lean ====
section
/-! DEFINITION. Arithmetic over `NUM` and the three functions of rule R14 (00_scope.md). -/

namespace Sys2Proof

/-- Rule R12: the mathematical result of an operation. -/
def ArithOp.exact : ArithOp → NUM → NUM → NUM
  | .add, a, b => a + b
  | .sub, a, b => a - b
  | .mul, a, b => a * b
  | .div, a, b => a / b

/-- Rule R14: "needs `lo <= hi`"; one of its three arguments, so it never rounds. -/
def clamp (x lo hi : NUM) : NUM := if x < lo then lo else if x > hi then hi else x

/-- Rule R14 (decision D5): the integer part, toward zero. -/
def trunc (x : NUM) : Int := Int.tdiv x.num x.den

namespace NumSystem

/-- A number brought into the system's range. -/
def into : NumSystem → NUM → NUM
  | .exact, x => x
  | .finite lo hi, x => clamp x lo hi

/-- Rules R12, R112 and R113: an operation of the number system. `none` is an overflow. Exact, it is
the mathematical operation; finite, it is what the system rounds the result to, in its range. -/
def arith (num : NumSystem) (op : ArithOp) (a b : NUM) : Option NUM :=
  match num with
  | .exact => some (op.exact a b)
  | .finite lo hi =>
    if lo ≤ op.exact a b ∧ op.exact a b ≤ hi then some (clamp (Config.roundOp op a b) lo hi) else none

/-- `a + b` (R12). -/
def add (num : NumSystem) (a b : NUM) : Option NUM := num.arith .add a b

/-- `a - b` (R12). -/
def sub (num : NumSystem) (a b : NUM) : Option NUM := num.arith .sub a b

/-- `a * b` (R12). -/
def mul (num : NumSystem) (a b : NUM) : Option NUM := num.arith .mul a b

/-- `a / k` for a positive integer constant `k` (R12). -/
def div (num : NumSystem) (a : NUM) (k : Nat) : Option NUM := num.arith .div a (k : NUM)

/-- The running sum of `Mean` from `acc` on. -/
def sumFrom (num : NumSystem) (acc : NUM) : List NUM → Option NUM
  | [] => some acc
  | x :: xs => (num.add acc x).bind fun acc' => num.sumFrom acc' xs

/-- The sum of a buffer "in index order" (R14). -/
def sum (num : NumSystem) : List NUM → Option NUM
  | [] => some 0
  | x :: xs => num.sumFrom x xs

/-- Rule R14: `Mean(buf)`, "summed in index order, then divided by N". -/
def mean (num : NumSystem) (n : Nat) (buf : List NUM) : Option NUM :=
  (num.sum buf).bind fun total => num.div total n

end NumSystem

end Sys2Proof
end

