-- ==== Sys2Proof/Machine/Ops.lean ====
section
/-! DEFINITION. The shared operations: ending an operation (R84, R195), the buffer's access
primitives (R61), responding, and the register reset of rule R220. T3CTL takes no exception: it has
"no cause register, no saved state, no handler address, no return instruction" (60_exceptions.md),
and `raise` is all that takes the place of one. -/

namespace Sys2Proof.Machine

/-- How a computation inside an operation can end early. -/
inductive Stop where
  | fault (f : Fault)
  | refused (r : Refusal)
deriving DecidableEq, Repr

/-- A computation inside an operation: it goes on with a value, or ends the whole operation with no
state changed (R13, R201). -/
abbrev Act (α : Type) := Except Stop α

/-- Rules R13 and R195: `raise X(info)` "ends the operation ... and no further state change". -/
def raise {α : Type} (f : Fault) : Act α := .error (.fault f)

/-- The model gives the case no meaning. -/
def refuse {α : Type} (r : Refusal) : Act α := .error (.refused r)

/-- The outcome of an operation. -/
def finish : Act State → Host.Outcome State Fault Refusal
  | .ok s => .next s
  | .error (.fault f) => .fault f
  | .error (.refused r) => .refused r

/-- Rule R113: a result of the number system, or `NumOverflow`. -/
def orOverflow {α : Type} : Option α → Act α
  | some v => .ok v
  | none => raise .numOverflow

/-- Rule R61: `MemRead(i, 1)`. -/
def memRead (m : Memory) (i : Nat) : Act NUM :=
  match m[i]? with
  | some v => .ok v
  | none => refuse (.bufferIndexOutOfRange i)

/-- Rule R61: `MemWrite(i, 1, v)`, which "changes no other element". -/
def memWrite (m : Memory) (i : Nat) (v : NUM) : Act Memory :=
  if i < m.length then .ok (m.set i v) else refuse (.bufferIndexOutOfRange i)

/-- Rule R84: the operation ends with `Ok` and met no condition of rule R190 so far. -/
def State.respondOk (s : State) : State := { s with report := ⟨.ok, []⟩ }

/-- Rule R84: the operation ends with `Ok(out)`. -/
def State.respondOut (s : State) (out : Int) : State := { s with report := ⟨.okOut out, []⟩ }

/-- A condition of rule R190 met by the operation in progress. -/
def State.met (s : State) (c : Condition) : State :=
  { s with report := { s.report with conditions := s.report.conditions ++ [c] } }

/-- Rule R190: the condition a rejection counts as. -/
def conditionsOf : RejectReason → List Condition
  | .malformed => [.malformed]
  | .unknownParameter => [.unknownParameter]
  | .unknownOperation => []
  | .notOwner => []

/-- Rule R84: `Rejected(reason)`, "not done; no state changed". -/
def State.reject (s : State) (r : RejectReason) : State :=
  { s with report := ⟨.rejected r, conditionsOf r⟩ }

/-- Rule R190: the number a condition has in traces. -/
def Condition.code : Condition → Nat
  | .sensorTimeout => 1
  | .malformed => 2
  | .unknownParameter => 3
  | .stopCondition => 4

/-- Rule R30 (decision D30): the two bits of `mode` on a status output. -/
def Mode.code : Mode → BitVec 2
  | .running => 0
  | .stopped => 1
  | .objectPresent => 2

/-- Rules R50 and R220: "every register of 10_state.md <- its reset value". The parameters are no
register, and what the environment has yet to supply is not the block's; the buffer's elements are
fresh free values (log entry 6). -/
def State.resetRegisters (s : State) : State :=
  { s with
    kp := .unwritten
    ki := .unwritten
    kd := .unwritten
    setpoint := .unwritten
    integralAccumulator := .unwritten
    previousError := .unwritten
    mode := .stopped
    pidTicks := 0
    measurementTicks := 0
    displayTicks := 0
    objDisplayTicks := 0
    holdTicks := 0
    measurementBuffer := freeBuffer s.freeDraws s.params.n
    measurementIndex := 0
    measurementComplete := false
    passFlag := false
    tickEnable := true
    lastRpm := 0
    stopFlag := false
    objectFlag := false
    actEnable := false
    actPower := 0
    disp := .blank
    freeDraws := s.freeDraws + s.params.n }

end Sys2Proof.Machine
end

