-- ==== Sys2Proof/Machine/Operands.lean ====
section
/-! DEFINITION. What an operation reads: a PID register (R27), and the collaborators' answers
(R176 to R178). An answer is the next one State lists; when none is left it is a free value within
the contract (log entry 5). -/

namespace Sys2Proof.Machine

/-- A PID register by its name. -/
def State.pidReg (s : State) : PidName → PidReg
  | .kp => s.kp
  | .ki => s.ki
  | .kd => s.kd
  | .setpoint => s.setpoint
  | .integralAccumulator => s.integralAccumulator
  | .previousError => s.previousError

/-- Rule R27: "An operation that reads an unwritten register ends with `raise UseBeforeInit(register)`
and changes no state"; the stop is the spec's (R84, R195, D22, U8). -/
def State.readPid (s : State) (name : PidName) : Act NUM :=
  match s.pidReg name with
  | .written v => .ok v
  | .unwritten => raise (.useBeforeInit name)

/-- Rule R178: the contract of `PotRead()`, a value of `NUM` in `[0, 100]`. -/
def potContract (num : NumSystem) (p : NUM) : Bool :=
  num.holds p && decide (0 ≤ p) && decide (p ≤ 100)

/-- Rule R176: the contract of `DistanceRead()`. -/
def distanceContract (params : Params) : DistanceAnswer → Bool
  | .timeout => true
  | .reading d => decide (params.distMin ≤ d) && decide (d ≤ params.distMax)

/-- Rule R176: the value the block sees, `ERROR_SENTINEL` on a timeout. -/
def distanceValue (params : Params) : DistanceAnswer → NUM
  | .timeout => params.errorSentinel
  | .reading d => d

/-- `PotRead()` (R178). An answer outside the contract has no meaning (U7). -/
def State.potRead (s : State) : Act (NUM × State) :=
  match s.potAnswers with
  | p :: rest =>
    if potContract s.params.num p then .ok (p, { s with potAnswers := rest })
    else refuse (.potOutsideContract p)
  | [] =>
    .ok (s.params.num.into (clamp (Config.freePot s.freeDraws) 0 100),
      { s with freeDraws := s.freeDraws + 1 })

/-- `RpmRead()` (R177): "any value of `NUM`". -/
def State.rpmRead (s : State) : Act (NUM × State) :=
  match s.rpmAnswers with
  | r :: rest =>
    if s.params.num.holds r then .ok (r, { s with rpmAnswers := rest })
    else refuse (.rpmOutsideContract r)
  | [] =>
    .ok (s.params.num.into (Config.freeRpm s.freeDraws), { s with freeDraws := s.freeDraws + 1 })

/-- The free answer of `DistanceRead()` number `k`: a timeout, or a reading clamped to the valid
range (R176). -/
def freeDistanceAnswer (params : Params) (k : Nat) : DistanceAnswer :=
  match Config.freeDistance k with
  | none => .timeout
  | some d => .reading (clamp d params.distMin params.distMax)

/-- `DistanceRead()` (R176). A timeout is the condition SensorTimeout (R191): it changes nothing but
the value, which is the sentinel, and the trace. -/
def State.distanceRead (s : State) : Act (NUM × State) :=
  match s.distanceAnswers with
  | .timeout :: rest =>
    .ok (s.params.errorSentinel, { s with distanceAnswers := rest }.met .sensorTimeout)
  | .reading d :: rest =>
    if distanceContract s.params (.reading d) then .ok (d, { s with distanceAnswers := rest })
    else refuse (.distanceOutsideContract d)
  | [] =>
    match freeDistanceAnswer s.params s.freeDraws with
    | .timeout =>
      .ok (s.params.errorSentinel, { s with freeDraws := s.freeDraws + 1 }.met .sensorTimeout)
    | .reading d => .ok (d, { s with freeDraws := s.freeDraws + 1 })

end Sys2Proof.Machine
end

