-- ==== Sys2Proof/Machine/Flags.lean ====
section
/-! DEFINITION. The flags (10_state.md section 5): the two input flags and what a TICK makes of
them, and the pass check. The block has no arithmetic condition codes. -/

namespace Sys2Proof.Machine

/-- `stop_flag <- b` (R171, R172). -/
def State.setStop (s : State) (b : Bool) : State := { s with stopFlag := b }

/-- `object_flag <- b` (R173, R174), which is `input_flags.set_object_present(b)`. -/
def State.setObject (s : State) (b : Bool) : State := { s with objectFlag := b }

/-- Rule R131: the branch the snapshot of the two flags selects, "stop overrides object-detection
overrides normal running". -/
def branchOf (stop object : Bool) : Mode :=
  if stop then .stopped else if object then .objectPresent else .running

/-- Rule R135: `Mean(buf) >= THRESHOLD`. -/
def passCheck (params : Params) (mean : NUM) : Bool := decide (mean ≥ params.threshold)

end Sys2Proof.Machine
end

