-- ==== Sys2Proof/Machine/FlagEvents.lean ====
section
/-! DEFINITION. The four flag operations (42_flags_and_collaborators.md section 1). -/

namespace Sys2Proof.Machine

/-- `STOP_SET` (R171). -/
def execStopSet (s : State) : Host.Outcome State Fault Refusal := .next (s.setStop true).respondOk

/-- `STOP_CLR` (R172). -/
def execStopClr (s : State) : Host.Outcome State Fault Refusal := .next (s.setStop false).respondOk

/-- `OBJ_SET` (R173). -/
def execObjSet (s : State) : Host.Outcome State Fault Refusal := .next (s.setObject true).respondOk

/-- `OBJ_CLR` (R174). -/
def execObjClr (s : State) : Host.Outcome State Fault Refusal := .next (s.setObject false).respondOk

end Sys2Proof.Machine
end

