-- ==== Sys2Proof/Machine/Pid.lean ====
section
/-! DEFINITION. The PID controller's six operations (40_pid_core.md). -/

namespace Sys2Proof.Machine

/-- The values UPDATE reads (R106). -/
structure PidInputs where
  kp : NUM
  ki : NUM
  kd : NUM
  setpoint : NUM
  accumulator : NUM
  previousError : NUM
deriving DecidableEq, Repr

/-- What UPDATE computes (R106). -/
structure PidResult where
  accumulator : NUM
  previousError : NUM
  out : Int
deriving DecidableEq, Repr

/-- Rule R106, the check before step 1: all six registers, in its order. -/
def State.pidInputs (s : State) : Act PidInputs := do
  let kp ← s.readPid .kp
  let ki ← s.readPid .ki
  let kd ← s.readPid .kd
  let setpoint ← s.readPid .setpoint
  let accumulator ← s.readPid .integralAccumulator
  let previousError ← s.readPid .previousError
  .ok ⟨kp, ki, kd, setpoint, accumulator, previousError⟩

/-- Rule R106, steps 1 to 7, in the evaluation order of rule R112. `none` is an overflow (R113). -/
def pidCompute (params : Params) (x : PidInputs) (m : NUM) : Option PidResult := do
  let num := params.num
  let error ← num.sub x.setpoint m
  let sum ← num.add x.accumulator error
  let accumulator := clamp sum (-params.maxIntegral) params.maxIntegral
  let derivative ← num.sub error x.previousError
  let proportional ← num.mul x.kp error
  let integral ← num.mul x.ki accumulator
  let derived ← num.mul x.kd derivative
  let partialSum ← num.add proportional integral
  let rawOutput ← num.add partialSum derived
  let limited := clamp rawOutput params.minOutput params.maxOutput
  some ⟨accumulator, error, trunc limited⟩

/-- Rule R106: the effect and the result of UPDATE, as UPDATE itself and the PID phase use it. It
writes the accumulator and the previous error "and nothing else". -/
def State.pidUpdate (s : State) (m : NUM) : Act (Int × State) := do
  let x ← s.pidInputs
  let r ← orOverflow (pidCompute s.params x m)
  .ok (r.out,
    { s with integralAccumulator := .written r.accumulator, previousError := .written r.previousError })

/-- `INIT` (R101). -/
def execInit (kp ki kd sp : NUM) (s : State) : Host.Outcome State Fault Refusal :=
  .next { s with
    kp := .written kp
    ki := .written ki
    kd := .written kd
    setpoint := .written sp
    integralAccumulator := .written 0
    previousError := .written 0 }.respondOk

/-- `SET_KP` (R103). -/
def execSetKp (v : NUM) (s : State) : Host.Outcome State Fault Refusal :=
  .next { s with kp := .written v }.respondOk

/-- `SET_KI` (R104). -/
def execSetKi (v : NUM) (s : State) : Host.Outcome State Fault Refusal :=
  .next { s with ki := .written v }.respondOk

/-- `SET_KD` (R105). -/
def execSetKd (v : NUM) (s : State) : Host.Outcome State Fault Refusal :=
  .next { s with kd := .written v }.respondOk

/-- `SET_SP` (R102). -/
def execSetSp (v : NUM) (s : State) : Host.Outcome State Fault Refusal :=
  .next { s with setpoint := .written v }.respondOk

/-- `UPDATE` (R106) as a word of its own: on the assembled block it "ends with `Rejected(NotOwner)`
and changes no state" (R90). -/
def execUpdate (m : NUM) (s : State) : Host.Outcome State Fault Refusal :=
  if s.params.standalonePid then
    finish do
      let (out, s') ← s.pidUpdate m
      .ok (s'.respondOut out)
  else .next (s.reject .notOwner)

end Sys2Proof.Machine
end

