-- ==== Sys2Proof/Machine/Scheduler.lean ====
section
/-! DEFINITION. TICK: its gating, its three branches and their phases (41_scheduler.md). -/

namespace Sys2Proof.Machine

/-- Rule R143: what every STOPPED tick and every RUNNING tick clears of the OBJECT_PRESENT branch's
progress. -/
def State.leaveObject (s : State) : State :=
  { s with
    measurementTicks := 0
    objDisplayTicks := 0
    holdTicks := 0
    measurementIndex := 0
    measurementComplete := false }

/-- Rule R132: the STOPPED branch; it is the condition StopCondition (R194). -/
def State.stoppedBranch (s : State) : State :=
  let s := { s.leaveObject with actEnable := false, disp := .stopped }.met .stopCondition
  if s.params.stopTerminal then { s with tickEnable := false } else s

/-- Rule R135: round completion. -/
def State.completeRound (s : State) : Act State := do
  let mean ← orOverflow (s.params.num.mean s.params.n s.measurementBuffer)
  .ok { s with
    measurementComplete := true
    passFlag := passCheck s.params mean
    measurementIndex := 0
    holdTicks := 0 }

/-- Rule R134, the firing: one sample into the buffer, and completion at index `N`. -/
def State.takeSample (s : State) : Act State := do
  let (d, s) ← { s with measurementTicks := 0 }.distanceRead
  let buffer ← memWrite s.measurementBuffer s.measurementIndex d
  let s := { s with measurementBuffer := buffer, measurementIndex := s.measurementIndex + 1 }
  if s.measurementIndex = s.params.n then s.completeRound else .ok s

/-- Rule R134: the measurement phase. -/
def State.measurementPhase (s : State) : Act State :=
  let s := { s with measurementTicks := s.measurementTicks + 1 }
  if s.measurementTicks ≥ s.params.measurementRate then s.takeSample else .ok s

/-- Rule R136: the hold phase. -/
def State.holdPhase (s : State) : State := { s with holdTicks := s.holdTicks + 1 }

/-- Rule R137: the percentage-complete indicator. -/
def progressOf (index n : Nat) : Nat := index * (100 / n)

/-- Rule R137: the frame the OBJECT_PRESENT display phase shows. -/
def State.objectFrame (s : State) : Act Frame :=
  if s.measurementComplete then do
    let mean ← orOverflow (s.params.num.mean s.params.n s.measurementBuffer)
    .ok (.result mean)
  else .ok (.progress (progressOf s.measurementIndex s.params.n))

/-- Rule R137: the OBJECT_PRESENT display phase. -/
def State.objectDisplayPhase (s : State) : Act State :=
  let s := { s with objDisplayTicks := s.objDisplayTicks + 1 }
  if s.objDisplayTicks ≥ s.params.displayRate / 2 then do
    let frame ← s.objectFrame
    .ok { s with objDisplayTicks := 0, disp := frame }
  else .ok s

/-- Rule R138: hold expiry, with the scheduler's one write of a flag (R175). -/
def State.holdExpiry (s : State) : State :=
  if s.measurementComplete ∧ s.holdTicks ≥ s.params.holdTicks then
    { s.setObject false with measurementComplete := false, holdTicks := 0 }
  else s

/-- Rule R133: the choice between measurement and hold, by `measurement_complete` as it was when the
tick began. -/
def State.measureOrHold (s : State) : Act State :=
  if s.measurementComplete then .ok s.holdPhase else s.measurementPhase

/-- Rule R133: the OBJECT_PRESENT branch. -/
def State.objectBranch (s : State) : Act State := do
  let s ← { s with actEnable := false }.measureOrHold
  let s ← s.objectDisplayPhase
  .ok s.holdExpiry

/-- Rule R140: the target of a setpoint input of `p` percent, `(p * MAX_RPM) / 100`. -/
def targetRpm (params : Params) (p : NUM) : Act NUM := do
  let product ← orOverflow (params.num.mul p params.maxRpm)
  orOverflow (params.num.div product 100)

/-- Rule R140, the firing. -/
def State.controlLoop (s : State) : Act State := do
  let (p, s) ← { s with pidTicks := 0 }.potRead
  let target ← targetRpm s.params p
  let (r, s) ← { s with setpoint := .written target }.rpmRead
  let (out, s) ← { s with lastRpm := r }.pidUpdate r
  .ok { s with actPower := out }

/-- Rule R140: the PID phase. -/
def State.pidPhase (s : State) : Act State :=
  let s := { s with pidTicks := s.pidTicks + 1 }
  if s.pidTicks ≥ s.params.pidRate then s.controlLoop else .ok s

/-- Rule R141: the RUNNING display phase. -/
def State.runDisplayPhase (s : State) : Act State :=
  let s := { s with displayTicks := s.displayTicks + 1 }
  if s.displayTicks ≥ s.params.displayRate then do
    let target ← s.readPid .setpoint
    .ok { s with displayTicks := 0, disp := .run s.lastRpm target }
  else .ok s

/-- Rule R139: the RUNNING branch. -/
def State.runningBranch (s : State) : Act State := do
  let s ← { s.leaveObject with actEnable := true }.pidPhase
  s.runDisplayPhase

/-- The body of one branch. -/
def State.branch (s : State) : Mode → Act State
  | .stopped => .ok s.stoppedBranch
  | .objectPresent => s.objectBranch
  | .running => s.runningBranch

/-- Rule R131, a TICK that is delivered: the snapshot, `mode`, one branch. -/
def State.deliverTick (s : State) : Act State :=
  let selected := branchOf s.stopFlag s.objectFlag
  { s with mode := selected }.branch selected

/-- `TICK` (R131): ignored while `tick_enable` is 0. -/
def execTick (s : State) : Host.Outcome State Fault Refusal :=
  let s := s.respondOk
  if s.tickEnable then finish s.deliverTick else .next s

end Sys2Proof.Machine
end

