-- ==== Sys2Proof/Machine/System.lean ====
section
/-! DEFINITION. RESET (70_reset_and_hazards.md section 1). -/

namespace Sys2Proof.Machine

/-- `RESET` (R220): "accepted in every state, including with `tick_enable = 0`". -/
def execReset (s : State) : Host.Outcome State Fault Refusal := .next s.resetRegisters.respondOk

end Sys2Proof.Machine
end

