-- ==== Sys2Proof/Machine/Dispatch.lean ====
section
/-! DEFINITION. The dispatch: one arm per operation of rule R82, each one call of its meaning. -/

namespace Sys2Proof.Machine

/-- The effect of one operation, each an atomic transition (R67). -/
def exec (i : Instr) (s : State) : Host.Outcome State Fault Refusal :=
  match i with
  | .init kp ki kd sp => Sys2Proof.Machine.execInit kp ki kd sp s
  | .setKp v => Sys2Proof.Machine.execSetKp v s
  | .setKi v => Sys2Proof.Machine.execSetKi v s
  | .setKd v => Sys2Proof.Machine.execSetKd v s
  | .setSp v => Sys2Proof.Machine.execSetSp v s
  | .update m => Sys2Proof.Machine.execUpdate m s
  | .tick => Sys2Proof.Machine.execTick s
  | .stopSet => Sys2Proof.Machine.execStopSet s
  | .stopClr => Sys2Proof.Machine.execStopClr s
  | .objSet => Sys2Proof.Machine.execObjSet s
  | .objClr => Sys2Proof.Machine.execObjClr s
  | .reset => Sys2Proof.Machine.execReset s

end Sys2Proof.Machine
end

