-- ==== Sys2Proof/Machine/Step.lean ====
section
/-! DEFINITION. One step: the block takes the next thing the environment hands it (R67, R221). -/

namespace Sys2Proof.Machine

/-- One step. With nothing pending the block waits ("After RESET the block waits for operations",
R221; log entry 4). A rejected arrival changes no register (R84); any other is one operation. -/
def step (s : State) : Host.Outcome State Fault Refusal :=
  match s.pending with
  | [] => .next s
  | arrival :: rest =>
    match decodeArrival s.params.num arrival with
    | .ok i => exec i { s with pending := rest }
    | .error reason => .next ({ s with pending := rest }.reject reason)

/-- `s` with the operation word of an opcode-table row as the next thing the environment hands the
block, so that the next step runs it (log entry 4). -/
def State.withFetchWord (s : State) (_nbits w : Nat) : State :=
  { s with pending := .word (tableWord w) :: s.pending }

end Sys2Proof.Machine
end

