-- ==== Sys2Proof/Safety.lean ====
section
/-! DEFINITION. The terms claims are stated in: the invariants of rules R28 and R47, and what a safe
run needs of a state; overflow (R113) and the output bound (R108) as the rules put them. -/

namespace Sys2Proof

/-- Rules R113 and R195: the exact result of an operation is outside the range of a finite number
system. The exact numbers have no such case (log entry 3). -/
def NumSystem.Leaves (num : NumSystem) (op : ArithOp) (a b : NUM) : Prop :=
  match num with
  | .exact => False
  | .finite lo hi => op.exact a b < lo ∨ hi < op.exact a b

/-- Rule R14: `total` is the running sum of a buffer's first elements, added "in index order" in the
number system, none of the additions overflowing. -/
inductive NumSystem.RunningSum (num : NumSystem) : List NUM → NUM → Prop
  | first (x : NUM) : num.RunningSum [x] x
  | next {l : List NUM} {total total' : NUM} (y : NUM) : num.RunningSum l total →
      num.add total y = some total' → num.RunningSum (l ++ [y]) total'

/-- Rule R108: `out` is the truncation of an output within the bounds; with integer bounds it is within
them itself. -/
def Profile.OutputBounded (p : Profile) (out : Int) : Prop :=
  ∃ limited : NUM, p.minOutput ≤ limited ∧ limited ≤ p.maxOutput ∧ out = ⌊limited⌋ ∧
    ∀ lo hi : Int, p.minOutput = lo → p.maxOutput = hi → lo ≤ out ∧ out ≤ hi

end Sys2Proof

namespace Sys2Proof.Machine

/-- Rule R113: "an overflow of `error`, `sum`, `derivative`, any product or `raw_output`": one of the
operations of UPDATE (R106, R112) leaves the range, those whose results it takes having answered. -/
def UpdateOverflows (p : Params) (x : PidInputs) (m : NUM) : Prop :=
  p.num.Leaves .sub x.setpoint m ∨
  ∃ error, p.num.sub x.setpoint m = some error ∧
    (p.num.Leaves .add x.accumulator error ∨
    ∃ sum, p.num.add x.accumulator error = some sum ∧
      let accumulator := max (-p.maxIntegral) (min p.maxIntegral sum)
      (p.num.Leaves .sub error x.previousError ∨ p.num.Leaves .mul x.kp error ∨
        p.num.Leaves .mul x.ki accumulator ∨
      ∃ derivative pTerm iTerm, p.num.sub error x.previousError = some derivative ∧
        p.num.mul x.kp error = some pTerm ∧ p.num.mul x.ki accumulator = some iTerm ∧
        (p.num.Leaves .mul x.kd derivative ∨ p.num.Leaves .add pTerm iTerm ∨
        ∃ dTerm pSum, p.num.mul x.kd derivative = some dTerm ∧ p.num.add pTerm iTerm = some pSum ∧
          p.num.Leaves .add pSum dTerm)))

/-- Rule R28: "whenever `integral_accumulator` is written,
`-MAX_INTEGRAL <= integral_accumulator <= MAX_INTEGRAL`". -/
def State.AccumulatorBounded (s : State) : Prop :=
  ∀ v, s.integralAccumulator = .written v → -s.params.maxIntegral ≤ v ∧ v ≤ s.params.maxIntegral

/-- Rule R47, with the capacity of rule R36. -/
structure State.SchedulerInv (s : State) : Prop where
  bufferLength : s.measurementBuffer.wf s.params.n = true
  index : s.measurementIndex ≤ s.params.n - 1
  complete : s.measurementComplete = true → s.measurementIndex = 0 ∧ s.measurementTicks = 0
  hold : s.measurementComplete = false → s.holdTicks = 0
  pidTicks : s.pidTicks < s.params.pidRate
  measurementTicks : s.measurementTicks < s.params.measurementRate
  displayTicks : s.displayTicks < s.params.displayRate
  objDisplayTicks : s.objDisplayTicks < s.params.displayRate / 2
  holdTicks : s.holdTicks < s.params.holdTicks
  power : 0 ≤ s.actPower ∧ s.actPower ≤ 100

/-- Rule R27: no PID register is unwritten, as INIT leaves them. -/
def State.Initialised (s : State) : Prop := ∀ name, s.pidReg name ≠ .unwritten

/-- Rules R176 to R178: every answer the environment has listed is within its contract. -/
structure State.AnswersInContract (s : State) : Prop where
  pot : ∀ p ∈ s.potAnswers, potContract s.params.num p = true
  rpm : ∀ r ∈ s.rpmAnswers, s.params.num.holds r = true
  distance : ∀ a ∈ s.distanceAnswers, distanceContract s.params a = true

/-- Rule R178: `p` is the answer of the next `PotRead()`, after which `rest` is listed and `draws` free
values are drawn. The first case is a listed answer, the second a free one (log entry 5). -/
def State.PotNext (s : State) (p : NUM) (rest : List NUM) (draws : Nat) : Prop :=
  (s.potAnswers = p :: rest ∧ draws = s.freeDraws ∧ potContract s.params.num p = true) ∨
  (s.potAnswers = [] ∧ rest = [] ∧ draws = s.freeDraws + 1 ∧
    p = s.params.num.into (clamp (Config.freePot s.freeDraws) 0 100))

/-- Rule R177: likewise of the next `RpmRead()`, when `before` free values are drawn already. -/
def State.RpmNext (s : State) (before : Nat) (r : NUM) (rest : List NUM) (draws : Nat) : Prop :=
  (s.rpmAnswers = r :: rest ∧ draws = before ∧ s.params.num.holds r = true) ∨
  (s.rpmAnswers = [] ∧ rest = [] ∧ draws = before + 1 ∧
    r = s.params.num.into (Config.freeRpm before))

/-- Rule R176: likewise of the next `DistanceRead()`. -/
def State.DistanceNext (s : State) (a : DistanceAnswer) (rest : List DistanceAnswer) (draws : Nat) :
    Prop :=
  (s.distanceAnswers = a :: rest ∧ draws = s.freeDraws ∧ distanceContract s.params a = true) ∨
  (s.distanceAnswers = [] ∧ rest = [] ∧ draws = s.freeDraws + 1 ∧
    a = freeDistanceAnswer s.params s.freeDraws)

/-- A state from which nothing stops the block but a RESET before the next INIT: exact numbers, the
invariant of rule R47, INIT done (R222), and an environment that keeps its contract. -/
structure State.Safe (s : State) : Prop where
  exact : s.params.num = .exact
  scheduler : s.SchedulerInv
  initialised : s.Initialised
  answers : s.AnswersInContract

end Sys2Proof.Machine
end

