-- ==== Sys2Proof/Certificates/Slice0/Obligations.lean ====
section
/-! DEFINITION. The statements for the provers, from the numbered rules of spec/. Statements about
UPDATE's and TICK's arithmetic are in terms of `max`, `min`, the floor and `List.sum` on the
rationals, not of the model's own `clamp`, `trunc` and `mean`. -/

open Sys2Proof Sys2Proof.Machine

/-! ## Encoding -/

/-- R82, R83, R85: all sixteen values of `op`, in every number system; twelve name an operation, with the
operands as they stand and in the order of the table. That a reserved `op` is `UnknownOperation` with
operands `NUM` cannot represent too is the model's choice (log entry 14). -/
def Obligations.OpcodeMapDecodes : Prop :=
  ∀ (num : NumSystem) (a b c d : NUM), (∀ v ∈ [a, b, c, d], num.holds v = true) →
    decode num ⟨0x1#4, [.num a, .num b, .num c, .num d]⟩ = .ok (.init a b c d) ∧
    decode num ⟨0x2#4, [.num a]⟩ = .ok (.setKp a) ∧
    decode num ⟨0x3#4, [.num a]⟩ = .ok (.setKi a) ∧
    decode num ⟨0x4#4, [.num a]⟩ = .ok (.setKd a) ∧
    decode num ⟨0x5#4, [.num a]⟩ = .ok (.setSp a) ∧
    decode num ⟨0x6#4, [.num a]⟩ = .ok (.update a) ∧
    decode num ⟨0x8#4, []⟩ = .ok .tick ∧
    decode num ⟨0x9#4, []⟩ = .ok .stopSet ∧
    decode num ⟨0xA#4, []⟩ = .ok .stopClr ∧
    decode num ⟨0xB#4, []⟩ = .ok .objSet ∧
    decode num ⟨0xC#4, []⟩ = .ok .objClr ∧
    decode num ⟨0xF#4, []⟩ = .ok .reset ∧
    ∀ operands, ∀ op ∈ [0x0#4, 0x7#4, 0xD#4, 0xE#4],
      decode num ⟨op, operands⟩ = .error .unknownOperation

/-- R81 to R83: no operand and no bit of `op` is lost by encoding. -/
def Obligations.DecodeOfEncode : Prop :=
  ∀ (num : NumSystem) (i : Instr), i.wf num = true → decode num (encode i) = .ok i

/-- R81, R82: a word that decodes is the one word of the operation it decodes to. -/
def Obligations.EncodeOfDecode : Prop :=
  ∀ (num : NumSystem) (w : OpWord) (i : Instr), decode num w = .ok i → encode i = w ∧ i.wf num = true

/-- R85, R88, R113: a reserved `op`, a word with too few or too many operands, and a word with an operand
`NUM` cannot represent are rejected and change no register: the step only takes the word off the queue
and reports. Which reason a word with two of them gets, and that `Malformed` comes before `NotOwner`, is
the model's choice (log entry 14); that a malformed word counts as the condition Malformed is deduced
(log entry 7). -/
def Obligations.ReservedAndMalformedWordsRejected : Prop :=
  ∀ (s : State) (w : OpWord) (rest : List Arrival), s.pending = .word w :: rest →
    (w.op ∈ [0x0#4, 0x7#4, 0xD#4, 0xE#4] →
      step s = .next { s with pending := rest, report := ⟨.rejected .unknownOperation, []⟩ }) ∧
    ((w.op ∈ [0x8#4, 0x9#4, 0xA#4, 0xB#4, 0xC#4, 0xF#4] ∧ w.operands.length ≠ 0 ∨
        w.op ∈ [0x2#4, 0x3#4, 0x4#4, 0x5#4, 0x6#4] ∧ w.operands.length ≠ 1 ∨
        w.op = 0x1#4 ∧ w.operands.length ≠ 4) →
      step s = .next { s with pending := rest, report := ⟨.rejected .malformed, [.malformed]⟩ }) ∧
    (w.op ∉ [0x0#4, 0x7#4, 0xD#4, 0xE#4] →
      (∃ x ∈ w.operands, ∀ v, s.params.num.holds v = true → x ≠ .num v) →
      step s = .next { s with pending := rest, report := ⟨.rejected .malformed, [.malformed]⟩ })

/-- R87: a well-formed command is exactly one operation, and the channel has no form for another. -/
def Obligations.TuningCommandsMeanOperations : Prop :=
  ∀ num : NumSystem,
    (∀ v, num.holds v = true →
      decodeLine num [.text "SET", .text "KP", .value (.num v)] = .ok (.setKp v) ∧
      decodeLine num [.text "SET", .text "KI", .value (.num v)] = .ok (.setKi v) ∧
      decodeLine num [.text "SET", .text "KD", .value (.num v)] = .ok (.setKd v) ∧
      decodeLine num [.text "SET", .text "SP", .value (.num v)] = .ok (.setSp v)) ∧
    ∀ line i, decodeLine num line = .ok i →
      ∃ p v, line = [.text "SET", .text p, .value (.num v)] ∧
        (p = "KP" ∧ i = .setKp v ∨ p = "KI" ∧ i = .setKi v ∨
          p = "KD" ∧ i = .setKd v ∨ p = "SP" ∧ i = .setSp v)

/-- R88, R192: a line that is not `SET <PARAM> <VALUE>` with a value of `NUM` is malformed, one with
a name outside the four is an unknown parameter, and in both cases no register changes. That a line
with both faults, an unknown name and a value `NUM` cannot represent, is malformed is the model's
choice (log entry 14). -/
def Obligations.BadTuningLinesRejected : Prop :=
  ∀ (s : State) (line : List Token) (rest : List Arrival), s.pending = .line line :: rest →
    ((∀ p v, s.params.num.holds v = true → line ≠ [.text "SET", .text p, .value (.num v)]) →
      step s = .next { s with pending := rest, report := ⟨.rejected .malformed, [.malformed]⟩ }) ∧
    (∀ p v, s.params.num.holds v = true → line = [.text "SET", .text p, .value (.num v)] →
      p ∉ ["KP", "KI", "KD", "SP"] →
      step s = .next { s with
        pending := rest, report := ⟨.rejected .unknownParameter, [.unknownParameter]⟩ })

/-! ## The step -/

/-- R67, R84: when what the environment hands the block decodes to an operation, the step is that
operation, whole, on the state with it taken off the queue. -/
def Obligations.StepRunsDecodedOperation : Prop :=
  ∀ (s : State) (arrival : Arrival) (rest : List Arrival) (i : Instr),
    s.pending = arrival :: rest → decodeArrival s.params.num arrival = .ok i →
    step s = exec i { s with pending := rest }

/-- R221 ("the block waits for operations"), R200 ("if the environment issues no TICK, nothing
counts"). That waiting is a step that changes nothing is the model's choice (log entry 4). -/
def Obligations.StepWaitsWithNothingPending : Prop :=
  ∀ s : State, s.pending = [] → step s = .next s

/-! ## PID controller -/

/-- R101: INIT's word; it writes the six PID registers and no other register, in every state. -/
def Obligations.InitWritesAllSixRegisters : Prop :=
  ∀ (kp ki kd sp : NUM) (s : State),
    encode (.init kp ki kd sp) = ⟨0x1#4, [.num kp, .num ki, .num kd, .num sp]⟩ ∧
    exec (.init kp ki kd sp) s = .next { s with
      kp := .written kp, ki := .written ki, kd := .written kd, setpoint := .written sp,
      integralAccumulator := .written 0, previousError := .written 0, report := ⟨.ok, []⟩ }

/-- R103, R104, R105: SET_KP, SET_KI and SET_KD: the word and the command of each; each writes one
register and no other, in every state, the accumulator not rescaled. -/
def Obligations.GainWritesChangeOneRegister : Prop :=
  ∀ (v : NUM) (s : State),
    (encode (.setKp v) = ⟨0x2#4, [.num v]⟩ ∧ tuningOperation "KP" v = some (.setKp v) ∧
      exec (.setKp v) s = .next { s with kp := .written v, report := ⟨.ok, []⟩ }) ∧
    (encode (.setKi v) = ⟨0x3#4, [.num v]⟩ ∧ tuningOperation "KI" v = some (.setKi v) ∧
      exec (.setKi v) s = .next { s with ki := .written v, report := ⟨.ok, []⟩ }) ∧
    (encode (.setKd v) = ⟨0x4#4, [.num v]⟩ ∧ tuningOperation "KD" v = some (.setKd v) ∧
      exec (.setKd v) s = .next { s with kd := .written v, report := ⟨.ok, []⟩ })

/-- R102: SET_SP's word and command; it overwrites `setpoint`, unwritten or not, and no other
register, and issued again it changes nothing. -/
def Obligations.SetSpOverwritesSetpoint : Prop :=
  ∀ (v : NUM) (s : State),
    encode (.setSp v) = ⟨0x5#4, [.num v]⟩ ∧ tuningOperation "SP" v = some (.setSp v) ∧
    let t : State := { s with setpoint := .written v, report := ⟨.ok, []⟩ }
    exec (.setSp v) s = .next t ∧ exec (.setSp v) t = .next t

/-- R110: the register writes and INIT issued twice leave the state of once; UPDATE does not. -/
def Obligations.RegisterWritesAreIdempotent : Prop :=
  (∀ (i : Instr) (s : State),
    ((∃ v, i = .setSp v ∨ i = .setKp v ∨ i = .setKi v ∨ i = .setKd v) ∨
      ∃ a b c d, i = .init a b c d) →
    ∃ t, exec i s = .next t ∧ exec i t = .next t) ∧
  ∃ (m : NUM) (s t u : State), exec (.update m) s = .next t ∧ exec (.update m) t = .next u ∧
    t.integralAccumulator ≠ s.integralAccumulator ∧ u.integralAccumulator ≠ t.integralAccumulator ∧
    t.previousError ≠ s.previousError

/-- R106: on a controller that stands alone, UPDATE's seven steps over exact numbers, the two
registers it writes and nothing else; and `UseBeforeInit` where one of the six is unwritten, whatever
the number system. That the fault names the first of R106's list is the reading of log entry 8. -/
def Obligations.UpdateComputesPidOutput : Prop :=
  ∀ (m : NUM) (s : State), s.params.standalonePid = true →
    (∀ kp ki kd sp acc pe : NUM, s.params.num = .exact →
      s.kp = .written kp → s.ki = .written ki → s.kd = .written kd → s.setpoint = .written sp →
      s.integralAccumulator = .written acc → s.previousError = .written pe →
      let error := sp - m
      let accumulator := max (-s.params.maxIntegral) (min s.params.maxIntegral (acc + error))
      let derivative := error - pe
      let rawOutput := kp * error + ki * accumulator + kd * derivative
      let limited := max s.params.minOutput (min s.params.maxOutput rawOutput)
      exec (.update m) s = .next { s with
        integralAccumulator := .written accumulator, previousError := .written error,
        report := ⟨.okOut ⌊limited⌋, []⟩ }) ∧
    ∀ name, [PidName.kp, .ki, .kd, .setpoint, .integralAccumulator, .previousError].find?
        (fun n => decide (s.pidReg n = .unwritten)) = some name →
      exec (.update m) s = .fault (.useBeforeInit name)

/-- R112: UPDATE in every number system, its eight operations on the operands and in the order that the
rule gives, none of them overflowing. What a finite `NUM` answers for each is free (log entry 3). -/
def Obligations.UpdateEvaluatesInStatedOrder : Prop :=
  ∀ (m kp ki kd sp acc pe error sum derivative pTerm iTerm dTerm pSum rawOutput : NUM) (s : State),
    s.params.standalonePid = true →
    s.kp = .written kp → s.ki = .written ki → s.kd = .written kd → s.setpoint = .written sp →
    s.integralAccumulator = .written acc → s.previousError = .written pe →
    let num := s.params.num
    let accumulator := max (-s.params.maxIntegral) (min s.params.maxIntegral sum)
    num.sub sp m = some error → num.add acc error = some sum → num.sub error pe = some derivative →
    num.mul kp error = some pTerm → num.mul ki accumulator = some iTerm →
    num.mul kd derivative = some dTerm → num.add pTerm iTerm = some pSum →
    num.add pSum dTerm = some rawOutput →
    exec (.update m) s = .next { s with
      integralAccumulator := .written accumulator, previousError := .written error,
      report := ⟨.okOut ⌊max s.params.minOutput (min s.params.maxOutput rawOutput)⌋, []⟩ }

/-- R90, R193, R202: on the assembled block an UPDATE word changes no register. -/
def Obligations.UpdateFromOutsideRejected : Prop :=
  ∀ (m : NUM) (s : State), s.params.standalonePid = false →
    exec (.update m) s = .next { s with report := ⟨.rejected .notOwner, []⟩ }

/-- R107: the accumulator is within `±MAX_INTEGRAL` after every UPDATE, in every number system and
from every state, whether UPDATE is a word of its own or part of a RUNNING tick. -/
def Obligations.AccumulatorBoundedAfterUpdate : Prop :=
  ∀ s t : State,
    ((∃ m, s.params.standalonePid = true ∧ exec (.update m) s = .next t) ∨
      (s.tickEnable = true ∧ s.stopFlag = false ∧ s.objectFlag = false ∧
        s.params.pidRate ≤ s.pidTicks + 1 ∧ exec .tick s = .next t)) →
    ∃ v, t.integralAccumulator = .written v ∧
      -s.params.maxIntegral ≤ v ∧ v ≤ s.params.maxIntegral

/-- R108: the limiter holds for every gain and error, in every number system: what an UPDATE word
returns, and what the UPDATE of a RUNNING tick gives the actuator, is the truncation of a value within
`MIN_OUTPUT` and `MAX_OUTPUT`, and with integer bounds is within them. -/
def Obligations.OutputBoundedAfterUpdate : Prop :=
  ∀ s t : State,
    (∀ m, s.params.standalonePid = true → exec (.update m) s = .next t →
      ∃ out, t.report.response = .okOut out ∧ s.params.OutputBounded out) ∧
    (s.tickEnable = true → s.stopFlag = false → s.objectFlag = false →
      s.params.pidRate ≤ s.pidTicks + 1 → exec .tick s = .next t →
      s.params.OutputBounded t.actPower)

/-- R109: in a run of UPDATE words with `m = setpoint`, the accumulator stops changing from the first
call on, and from the second call on the output is the constant
`trunc(clamp(ki * integral_accumulator, MIN_OUTPUT, MAX_OUTPUT))`, zero only if that product is
below 1. -/
def Obligations.ZeroErrorSteadyState : Prop :=
  ∀ (s : State) (kp ki kd sp acc pe : NUM) (k : Nat) (rest : List Arrival),
    s.params.standalonePid = true → s.params.num = .exact →
    s.kp = .written kp → s.ki = .written ki → s.kd = .written kd → s.setpoint = .written sp →
    s.integralAccumulator = .written acc → s.previousError = .written pe →
    -s.params.maxIntegral ≤ acc → acc ≤ s.params.maxIntegral →
    s.pending = List.replicate (k + 2) (.word ⟨0x6#4, [.num sp]⟩) ++ rest →
    (∃ t, step s = .next t ∧ t.integralAccumulator = .written acc) ∧
    ∃ t out, core.run (k + 2) s = .next t ∧ t.pending = rest ∧
      t.integralAccumulator = .written acc ∧ t.previousError = .written 0 ∧
      t.report.response = .okOut out ∧
      out = ⌊max s.params.minOutput (min s.params.maxOutput (ki * acc))⌋ ∧
      (s.params.minOutput = 0 → 1 ≤ s.params.maxOutput → (out = 0 ↔ ki * acc < 1))

/-- R113, R195: with exact rationals no operation overflows; with a finite `NUM` an UPDATE ends in
`NumOverflow` exactly when its error, its sum, its derivative, one of its three products, the sum of
the first two of them or `raw_output` leaves the range (`UpdateOverflows`), as a word and inside a
RUNNING tick alike. That the test is on the exact result is the model's choice (log entry 3). -/
def Obligations.OverflowOnlyInFiniteNumbers : Prop :=
  (∀ (i : Instr) (s : State), s.params.num = .exact → exec i s ≠ .fault .numOverflow) ∧
  ∀ (s : State) (kp ki kd acc pe : NUM),
    s.kp = .written kp → s.ki = .written ki → s.kd = .written kd →
    s.integralAccumulator = .written acc → s.previousError = .written pe →
    (∀ m sp, s.params.standalonePid = true → s.setpoint = .written sp →
      (exec (.update m) s = .fault .numOverflow ↔
        UpdateOverflows s.params ⟨kp, ki, kd, sp, acc, pe⟩ m)) ∧
    (∀ (p r product target : NUM) (pots rpms : List NUM) (draws draws' : Nat),
      s.tickEnable = true → s.stopFlag = false → s.objectFlag = false →
      s.params.pidRate ≤ s.pidTicks + 1 → s.PotNext p pots draws → s.RpmNext draws r rpms draws' →
      s.params.num.mul p s.params.maxRpm = some product →
      s.params.num.div product 100 = some target →
      (exec .tick s = .fault .numOverflow ↔
        UpdateOverflows s.params ⟨kp, ki, kd, target, acc, pe⟩ r))

/-- R195, R14: over a finite `NUM`, a TICK faults whose setpoint conversion forms a product out of range,
or whose `Mean` forms a sum out of range at any of its additions in index order, be it to complete a
round or to show the result held. (Neither division can leave a range that has 0 in it.) That the test
is on the exact result is the model's choice (log entry 3). -/
def Obligations.TickOverflowFaults : Prop :=
  ∀ s : State, s.tickEnable = true → s.stopFlag = false →
    (∀ p pots draws, s.objectFlag = false → s.params.pidRate ≤ s.pidTicks + 1 →
      s.PotNext p pots draws → s.params.num.Leaves .mul p s.params.maxRpm →
      exec .tick s = .fault .numOverflow) ∧
    (∀ (a : DistanceAnswer) (rest : List DistanceAnswer) (draws : Nat) (done more : Memory)
        (total y : NUM),
      s.objectFlag = true → s.measurementComplete = false →
      s.params.measurementRate ≤ s.measurementTicks + 1 →
      s.measurementBuffer.length = s.params.n → s.measurementIndex + 1 = s.params.n →
      s.DistanceNext a rest draws →
      s.measurementBuffer.set s.measurementIndex
        (match a with | .timeout => s.params.errorSentinel | .reading d => d) = done ++ y :: more →
      s.params.num.RunningSum done total → s.params.num.Leaves .add total y →
      exec .tick s = .fault .numOverflow) ∧
    (∀ (done more : Memory) (total y : NUM),
      s.objectFlag = true → s.measurementComplete = true →
      s.params.displayRate / 2 ≤ s.objDisplayTicks + 1 →
      s.measurementBuffer = done ++ y :: more →
      s.params.num.RunningSum done total → s.params.num.Leaves .add total y →
      exec .tick s = .fault .numOverflow)

/-! ## Scheduler -/

/-- R131, R197: with `tick_enable = 0` a TICK changes no register and calls no collaborator. -/
def Obligations.DisabledTickIgnored : Prop :=
  ∀ s : State, s.tickEnable = false → exec .tick s = .next { s with report := ⟨.ok, []⟩ }

/-- R144: a delivered tick executes exactly one branch, STOPPED before OBJECT_PRESENT before
RUNNING, whatever `mode` was; with `tick_enable = 0` no branch runs. -/
def Obligations.OneBranchPerTickByPrecedence : Prop :=
  ∀ s t : State, exec .tick s = .next t →
    (s.tickEnable = true →
      (t.mode = .stopped ↔ s.stopFlag = true) ∧
      (t.mode = .objectPresent ↔ s.stopFlag = false ∧ s.objectFlag = true) ∧
      (t.mode = .running ↔ s.stopFlag = false ∧ s.objectFlag = false)) ∧
    (s.tickEnable = false → t = { s with report := ⟨.ok, []⟩ })

/-- R132: the STOPPED branch, in every state and before INIT too, and its frame. The condition in
the report is the trace of R194 (log entry 7). -/
def Obligations.StoppedTick : Prop :=
  ∀ s : State, s.tickEnable = true → s.stopFlag = true →
    exec .tick s = .next { s with
      mode := .stopped, actEnable := false, disp := .stopped, measurementTicks := 0,
      objDisplayTicks := 0, holdTicks := 0, measurementIndex := 0, measurementComplete := false,
      tickEnable := !s.params.stopTerminal, report := ⟨.ok, [.stopCondition]⟩ }

/-- R133, R134, R137: an OBJECT_PRESENT tick between two samples: the two counters, the display, and
nothing else; no collaborator is read. -/
def Obligations.ObjectTickBetweenSamples : Prop :=
  ∀ s : State, s.tickEnable = true → s.stopFlag = false → s.objectFlag = true →
    s.measurementComplete = false → s.measurementTicks + 1 < s.params.measurementRate →
    exec .tick s = .next { s with
      mode := .objectPresent, actEnable := false, measurementTicks := s.measurementTicks + 1,
      objDisplayTicks :=
        if s.params.displayRate / 2 ≤ s.objDisplayTicks + 1 then 0 else s.objDisplayTicks + 1,
      disp := if s.params.displayRate / 2 ≤ s.objDisplayTicks + 1
        then .progress (s.measurementIndex * (100 / s.params.n)) else s.disp,
      report := ⟨.ok, []⟩ }

/-- R133, R134, R137, R147: an OBJECT_PRESENT tick that takes a sample which does not complete the
round: the answer, `ERROR_SENTINEL` on a timeout, goes to the element at the index and to no other. -/
def Obligations.ObjectTickTakesSample : Prop :=
  ∀ (s : State) (a : DistanceAnswer) (rest : List DistanceAnswer) (draws : Nat),
    s.tickEnable = true → s.stopFlag = false → s.objectFlag = true →
    s.measurementComplete = false → s.params.measurementRate ≤ s.measurementTicks + 1 →
    s.measurementIndex < s.measurementBuffer.length → s.measurementIndex + 1 ≠ s.params.n →
    s.DistanceNext a rest draws →
    exec .tick s = .next { s with
      mode := .objectPresent, actEnable := false, measurementTicks := 0,
      distanceAnswers := rest, freeDraws := draws,
      measurementBuffer := s.measurementBuffer.set s.measurementIndex
        (match a with | .timeout => s.params.errorSentinel | .reading d => d),
      measurementIndex := s.measurementIndex + 1,
      objDisplayTicks :=
        if s.params.displayRate / 2 ≤ s.objDisplayTicks + 1 then 0 else s.objDisplayTicks + 1,
      disp := if s.params.displayRate / 2 ≤ s.objDisplayTicks + 1
        then .progress ((s.measurementIndex + 1) * (100 / s.params.n)) else s.disp,
      report := ⟨.ok, if a = .timeout then [.sensorTimeout] else []⟩ }

/-- R133, R134, R135, R137: the OBJECT_PRESENT tick whose sample fills the buffer, over exact numbers:
the mean over all `N` elements, the pass check `mean >= THRESHOLD`, the index back at 0. Where the
sensor's answer comes from is the model's form (log entry 5). -/
def Obligations.ObjectTickCompletesRound : Prop :=
  ∀ (s : State) (a : DistanceAnswer) (rest : List DistanceAnswer) (draws : Nat),
    s.params.num = .exact → s.tickEnable = true → s.stopFlag = false → s.objectFlag = true →
    s.measurementComplete = false → s.params.measurementRate ≤ s.measurementTicks + 1 →
    s.measurementBuffer.length = s.params.n → s.measurementIndex + 1 = s.params.n →
    s.DistanceNext a rest draws →
    let buffer := s.measurementBuffer.set s.measurementIndex
      (match a with | .timeout => s.params.errorSentinel | .reading d => d)
    let mean := buffer.sum / (s.params.n : NUM)
    exec .tick s = .next { s with
      mode := .objectPresent, actEnable := false, measurementTicks := 0,
      distanceAnswers := rest, freeDraws := draws, measurementBuffer := buffer,
      measurementIndex := 0, measurementComplete := true,
      passFlag := decide (s.params.threshold ≤ mean), holdTicks := 0,
      objDisplayTicks :=
        if s.params.displayRate / 2 ≤ s.objDisplayTicks + 1 then 0 else s.objDisplayTicks + 1,
      disp := if s.params.displayRate / 2 ≤ s.objDisplayTicks + 1 then .result mean else s.disp,
      report := ⟨.ok, if a = .timeout then [.sensorTimeout] else []⟩ }

/-- R14, R133, R134, R135, R137: the same in every number system, none of the additions of `Mean` in
index order and not its division overflowing. What a finite `NUM` answers for each is free (log entry
3); where the sensor's answer comes from is the model's form (log entry 5). -/
def Obligations.ObjectTickCompletesRoundInAnyNumbers : Prop :=
  ∀ (s : State) (a : DistanceAnswer) (rest : List DistanceAnswer) (draws : Nat) (total mean : NUM),
    s.tickEnable = true → s.stopFlag = false → s.objectFlag = true →
    s.measurementComplete = false → s.params.measurementRate ≤ s.measurementTicks + 1 →
    s.measurementBuffer.length = s.params.n → s.measurementIndex + 1 = s.params.n →
    s.DistanceNext a rest draws →
    let buffer := s.measurementBuffer.set s.measurementIndex
      (match a with | .timeout => s.params.errorSentinel | .reading d => d)
    s.params.num.RunningSum buffer total → s.params.num.div total s.params.n = some mean →
    exec .tick s = .next { s with
      mode := .objectPresent, actEnable := false, measurementTicks := 0,
      distanceAnswers := rest, freeDraws := draws, measurementBuffer := buffer,
      measurementIndex := 0, measurementComplete := true,
      passFlag := decide (s.params.threshold ≤ mean), holdTicks := 0,
      objDisplayTicks :=
        if s.params.displayRate / 2 ≤ s.objDisplayTicks + 1 then 0 else s.objDisplayTicks + 1,
      disp := if s.params.displayRate / 2 ≤ s.objDisplayTicks + 1 then .result mean else s.disp,
      report := ⟨.ok, if a = .timeout then [.sensorTimeout] else []⟩ }

/-- R136, R137, R138: an OBJECT_PRESENT tick while a completed round is held, over exact numbers: one
hold tick, the averaged value on the display, and at `HOLD_TICKS` the object condition is cleared;
no sample is taken, the buffer and `pass_flag` keep their values. -/
def Obligations.ObjectTickHoldsResult : Prop :=
  ∀ s : State, s.params.num = .exact → s.tickEnable = true → s.stopFlag = false →
    s.objectFlag = true → s.measurementComplete = true →
    exec .tick s = .next { s with
      mode := .objectPresent, actEnable := false,
      holdTicks := if s.params.holdTicks ≤ s.holdTicks + 1 then 0 else s.holdTicks + 1,
      measurementComplete := !decide (s.params.holdTicks ≤ s.holdTicks + 1),
      objectFlag := !decide (s.params.holdTicks ≤ s.holdTicks + 1),
      objDisplayTicks :=
        if s.params.displayRate / 2 ≤ s.objDisplayTicks + 1 then 0 else s.objDisplayTicks + 1,
      disp := if s.params.displayRate / 2 ≤ s.objDisplayTicks + 1
        then .result (s.measurementBuffer.sum / (s.params.n : NUM)) else s.disp,
      report := ⟨.ok, []⟩ }

/-- R14, R136, R137, R138: a hold tick in every number system: between two firings of the display no
arithmetic is done; on a firing the mean is shown, none of its additions in index order and not its
division overflowing. What a finite `NUM` answers for each is free (log entry 3). -/
def Obligations.ObjectTickHoldsResultInAnyNumbers : Prop :=
  ∀ s : State, s.tickEnable = true → s.stopFlag = false → s.objectFlag = true →
    s.measurementComplete = true →
    let after : State := { s with
      mode := .objectPresent, actEnable := false,
      holdTicks := if s.params.holdTicks ≤ s.holdTicks + 1 then 0 else s.holdTicks + 1,
      measurementComplete := !decide (s.params.holdTicks ≤ s.holdTicks + 1),
      objectFlag := !decide (s.params.holdTicks ≤ s.holdTicks + 1), report := ⟨.ok, []⟩ }
    (s.objDisplayTicks + 1 < s.params.displayRate / 2 →
      exec .tick s = .next { after with objDisplayTicks := s.objDisplayTicks + 1 }) ∧
    (∀ total mean, s.params.displayRate / 2 ≤ s.objDisplayTicks + 1 →
      s.params.num.RunningSum s.measurementBuffer total →
      s.params.num.div total s.params.n = some mean →
      exec .tick s = .next { after with objDisplayTicks := 0, disp := .result mean })

/-- R139, R141, R143: a RUNNING tick on which the PID phase does not fire, in every state where the
display phase either does not fire or finds `setpoint` written. -/
def Obligations.RunningTickBetweenPidPhases : Prop :=
  ∀ s : State, s.tickEnable = true → s.stopFlag = false → s.objectFlag = false →
    s.pidTicks + 1 < s.params.pidRate →
    let after : State := { s with
      mode := .running, actEnable := true, measurementTicks := 0, objDisplayTicks := 0,
      holdTicks := 0, measurementIndex := 0, measurementComplete := false,
      pidTicks := s.pidTicks + 1, report := ⟨.ok, []⟩ }
    (s.displayTicks + 1 < s.params.displayRate →
      exec .tick s = .next { after with displayTicks := s.displayTicks + 1 }) ∧
    (∀ sp, s.params.displayRate ≤ s.displayTicks + 1 → s.setpoint = .written sp →
      exec .tick s = .next { after with displayTicks := 0, disp := .run s.lastRpm sp })

/-- R139, R140, R141: a RUNNING tick on which the PID phase fires, over exact numbers: the setpoint
from the setpoint input, one UPDATE with the rotation sensor's answer, the output to the actuator,
and the display phase after it. That no tuning write comes between rests on atomic operations
(decision D23, log entry 12). -/
def Obligations.RunningTickFiresPidPhase : Prop :=
  ∀ (s : State) (kp ki kd acc pe p r : NUM) (pots rpms : List NUM) (draws draws' : Nat),
    s.params.num = .exact → s.tickEnable = true → s.stopFlag = false → s.objectFlag = false →
    s.params.pidRate ≤ s.pidTicks + 1 →
    s.kp = .written kp → s.ki = .written ki → s.kd = .written kd →
    s.integralAccumulator = .written acc → s.previousError = .written pe →
    s.PotNext p pots draws → s.RpmNext draws r rpms draws' →
    let target := p * s.params.maxRpm / 100
    let error := target - r
    let accumulator := max (-s.params.maxIntegral) (min s.params.maxIntegral (acc + error))
    let rawOutput := kp * error + ki * accumulator + kd * (error - pe)
    exec .tick s = .next { s with
      mode := .running, actEnable := true, measurementTicks := 0, objDisplayTicks := 0,
      holdTicks := 0, measurementIndex := 0, measurementComplete := false,
      pidTicks := 0, potAnswers := pots, rpmAnswers := rpms, freeDraws := draws',
      setpoint := .written target, lastRpm := r, integralAccumulator := .written accumulator,
      previousError := .written error,
      actPower := ⌊max s.params.minOutput (min s.params.maxOutput rawOutput)⌋,
      displayTicks :=
        if s.params.displayRate ≤ s.displayTicks + 1 then 0 else s.displayTicks + 1,
      disp := if s.params.displayRate ≤ s.displayTicks + 1 then .run r target else s.disp,
      report := ⟨.ok, []⟩ }

/-- R112, R139, R140, R141: the same in every number system, the two operations of the setpoint
conversion and the eight of UPDATE applied to the operands and in the order that the rules give, none of
them overflowing. What a finite `NUM` answers for each is free (log entry 3); the collaborators' answers
and the atomic operation are as above (log entries 5 and 12). -/
def Obligations.RunningTickFiresPidPhaseInAnyNumbers : Prop :=
  ∀ (s : State) (kp ki kd acc pe p r : NUM) (pots rpms : List NUM) (draws draws' : Nat)
    (product target error sum derivative pTerm iTerm dTerm pSum rawOutput : NUM),
    s.tickEnable = true → s.stopFlag = false → s.objectFlag = false →
    s.params.pidRate ≤ s.pidTicks + 1 →
    s.kp = .written kp → s.ki = .written ki → s.kd = .written kd →
    s.integralAccumulator = .written acc → s.previousError = .written pe →
    s.PotNext p pots draws → s.RpmNext draws r rpms draws' →
    let num := s.params.num
    let accumulator := max (-s.params.maxIntegral) (min s.params.maxIntegral sum)
    num.mul p s.params.maxRpm = some product → num.div product 100 = some target →
    num.sub target r = some error → num.add acc error = some sum →
    num.sub error pe = some derivative → num.mul kp error = some pTerm →
    num.mul ki accumulator = some iTerm → num.mul kd derivative = some dTerm →
    num.add pTerm iTerm = some pSum → num.add pSum dTerm = some rawOutput →
    exec .tick s = .next { s with
      mode := .running, actEnable := true, measurementTicks := 0, objDisplayTicks := 0,
      holdTicks := 0, measurementIndex := 0, measurementComplete := false,
      pidTicks := 0, potAnswers := pots, rpmAnswers := rpms, freeDraws := draws',
      setpoint := .written target, lastRpm := r, integralAccumulator := .written accumulator,
      previousError := .written error,
      actPower := ⌊max s.params.minOutput (min s.params.maxOutput rawOutput)⌋,
      displayTicks :=
        if s.params.displayRate ≤ s.displayTicks + 1 then 0 else s.displayTicks + 1,
      disp := if s.params.displayRate ≤ s.displayTicks + 1 then .run r target else s.disp,
      report := ⟨.ok, []⟩ }

/-- R140, R141, R222: a RUNNING tick before INIT: a PID phase that fires, in every number system in
which the setpoint conversion answers, names the first of the gains, the accumulator and the previous
error that is unwritten (`setpoint` has just been written); a display phase that fires alone names
`setpoint`. That it is the first of the list is the reading of log entry 8. -/
def Obligations.RunningTickBeforeInitFaults : Prop :=
  ∀ s : State, s.tickEnable = true → s.stopFlag = false → s.objectFlag = false →
    (∀ (name : PidName) (p r product target : NUM) (pots rpms : List NUM) (draws draws' : Nat),
      s.params.pidRate ≤ s.pidTicks + 1 →
      s.PotNext p pots draws → s.RpmNext draws r rpms draws' →
      s.params.num.mul p s.params.maxRpm = some product →
      s.params.num.div product 100 = some target →
      [PidName.kp, .ki, .kd, .integralAccumulator, .previousError].find?
        (fun n => decide (s.pidReg n = .unwritten)) = some name →
      exec .tick s = .fault (.useBeforeInit name)) ∧
    (s.pidTicks + 1 < s.params.pidRate → s.params.displayRate ≤ s.displayTicks + 1 →
      s.setpoint = .unwritten → exec .tick s = .fault (.useBeforeInit .setpoint))

/-- R176, R178, U7: an answer outside its contract is given no meaning. -/
def Obligations.AnswersOutsideContractRefused : Prop :=
  ∀ s : State, s.tickEnable = true → s.stopFlag = false →
    (∀ p rest, s.objectFlag = false → s.params.pidRate ≤ s.pidTicks + 1 →
      s.potAnswers = p :: rest → p < 0 ∨ 100 < p →
      exec .tick s = .refused (.potOutsideContract p)) ∧
    (∀ d rest, s.objectFlag = true → s.measurementComplete = false →
      s.params.measurementRate ≤ s.measurementTicks + 1 →
      s.distanceAnswers = .reading d :: rest → d < s.params.distMin ∨ s.params.distMax < d →
      exec .tick s = .refused (.distanceOutsideContract d))

/-- R176, R177, R178: every answer the block goes on with is within its contract, listed or free. -/
def Obligations.AnswersUsedMeetContract : Prop :=
  ∀ (s t : State) (v : NUM),
    (s.potRead = .ok (v, t) → s.params.num.holds v = true ∧ 0 ≤ v ∧ v ≤ 100) ∧
    (s.rpmRead = .ok (v, t) → s.params.num.holds v = true) ∧
    (s.distanceRead = .ok (v, t) →
      v = s.params.errorSentinel ∨ s.params.distMin ≤ v ∧ v ≤ s.params.distMax)

/-- R142, R143: how the tick counters count: increment, compare by `>=`, back to 0 on a hit; the
counters of a branch that is not running are cleared or hold. -/
def Obligations.TickCountersCount : Prop :=
  ∀ s t : State, s.tickEnable = true → exec .tick s = .next t →
    (t.mode = .running →
      t.pidTicks = (if s.params.pidRate ≤ s.pidTicks + 1 then 0 else s.pidTicks + 1) ∧
      t.displayTicks =
        (if s.params.displayRate ≤ s.displayTicks + 1 then 0 else s.displayTicks + 1)) ∧
    (t.mode = .objectPresent →
      t.objDisplayTicks = (if s.params.displayRate / 2 ≤ s.objDisplayTicks + 1 then 0
        else s.objDisplayTicks + 1) ∧
      (s.measurementComplete = false → t.measurementTicks =
        if s.params.measurementRate ≤ s.measurementTicks + 1 then 0 else s.measurementTicks + 1) ∧
      (s.measurementComplete = true → t.measurementTicks = s.measurementTicks ∧
        t.holdTicks = if s.params.holdTicks ≤ s.holdTicks + 1 then 0 else s.holdTicks + 1)) ∧
    (t.mode ≠ .running → t.pidTicks = s.pidTicks ∧ t.displayTicks = s.displayTicks) ∧
    (t.mode ≠ .objectPresent → t.measurementTicks = 0 ∧ t.objDisplayTicks = 0 ∧ t.holdTicks = 0 ∧
      t.measurementIndex = 0 ∧ t.measurementComplete = false ∧
      t.measurementBuffer = s.measurementBuffer ∧ t.passFlag = s.passFlag)

/-- R148: STOPPED and OBJECT_PRESENT touch no PID register, nor anything else the RUNNING branch goes
on from. -/
def Obligations.PidKeptOutsideRunning : Prop :=
  ∀ s t : State, s.stopFlag = true ∨ s.objectFlag = true → exec .tick s = .next t →
    (∀ name, t.pidReg name = s.pidReg name) ∧ t.pidTicks = s.pidTicks ∧
    t.displayTicks = s.displayTicks ∧ t.lastRpm = s.lastRpm ∧ t.actPower = s.actPower ∧
    t.potAnswers = s.potAnswers ∧ t.rpmAnswers = s.rpmAnswers

/-- R145: after a delivered tick, the next tick changes `mode` only if a flag changed since that
tick's snapshot; only TICK and RESET write `mode`, and only the four flag operations, RESET and
the scheduler's own clearing at hold expiry write a flag. -/
def Obligations.ModeChangesOnlyWithFlags : Prop :=
  (∀ s t u v : State, s.tickEnable = true → exec .tick s = .next t → u.mode = t.mode →
    exec .tick u = .next v → v.mode ≠ u.mode →
    u.stopFlag ≠ s.stopFlag ∨ u.objectFlag ≠ s.objectFlag) ∧
  ∀ (i : Instr) (s t : State), exec i s = .next t →
    (t.mode ≠ s.mode → i = .tick ∨ i = .reset) ∧
    (t.stopFlag ≠ s.stopFlag → i = .stopSet ∨ i = .stopClr ∨ i = .reset) ∧
    (t.objectFlag ≠ s.objectFlag → i = .objSet ∨ i = .objClr ∨ i = .reset ∨
      i = .tick ∧ s.measurementComplete = true ∧ s.params.holdTicks ≤ s.holdTicks + 1)

/-- R175: inside TICK the scheduler never writes `stop_flag`, never sets `object_flag`, and clears it
at hold expiry only. -/
def Obligations.SchedulerWritesFlagOnlyAtHoldExpiry : Prop :=
  ∀ s t : State, exec .tick s = .next t →
    t.stopFlag = s.stopFlag ∧
    (t.objectFlag = s.objectFlag ∨
      s.objectFlag = true ∧ t.objectFlag = false ∧ s.stopFlag = false ∧ s.tickEnable = true ∧
        s.measurementComplete = true ∧ s.params.holdTicks ≤ s.holdTicks + 1)

/-- R44: `act_enable` is 1 after a RUNNING tick and 0 after an OBJECT_PRESENT or STOPPED tick, and
nothing but TICK and RESET (which writes 0) changes it. -/
def Obligations.ActuatorFollowsBranch : Prop :=
  ∀ (i : Instr) (s t : State), exec i s = .next t →
    (i = .tick → s.tickEnable = true → (t.actEnable = true ↔ t.mode = .running)) ∧
    (i = .reset → t.actEnable = false) ∧
    (i ≠ .tick → i ≠ .reset → t.actEnable = s.actEnable ∧ t.actPower = s.actPower)

/-- R40: `tick_enable` is written 0 only by the STOPPED branch under `STOP_TERMINAL`, written 1 only
by RESET. -/
def Obligations.TickEnableWriters : Prop :=
  ∀ (i : Instr) (s t : State), exec i s = .next t →
    (s.tickEnable = true → t.tickEnable = false →
      i = .tick ∧ s.stopFlag = true ∧ s.params.stopTerminal = true) ∧
    (s.tickEnable = false → t.tickEnable = true → i = .reset) ∧
    (s.tickEnable = false → i = .tick → t = { s with report := ⟨.ok, []⟩ }) ∧
    (i = .reset → t.tickEnable = true)

/-- R134, R135, R146: over exact numbers, a round begun at index 0 completes after exactly
`N * MEASUREMENT_RATE` OBJECT_PRESENT ticks, with the environment's `N` answers in the buffer in
order, their mean checked against the threshold, and the flags untouched. That the answers stand
listed in State is the model's form (log entry 5). -/
def Obligations.MeasurementRoundCompletes : Prop :=
  ∀ (s : State) (answers more : List DistanceAnswer) (rest : List Arrival),
    s.params.num = .exact → s.SchedulerInv →
    s.tickEnable = true → s.stopFlag = false → s.objectFlag = true →
    s.measurementComplete = false → s.measurementIndex = 0 → s.measurementTicks = 0 →
    answers.length = s.params.n → s.distanceAnswers = answers ++ more →
    (∀ a ∈ answers, distanceContract s.params a = true) →
    s.pending = List.replicate (s.params.n * s.params.measurementRate) (.word ⟨0x8#4, []⟩) ++ rest →
    let samples : List NUM := answers.map fun a =>
      match a with | .timeout => s.params.errorSentinel | .reading d => d
    ∃ t, core.run (s.params.n * s.params.measurementRate) s = .next t ∧
      t.measurementComplete = true ∧ t.measurementBuffer = samples ∧
      t.passFlag = decide (s.params.threshold ≤ samples.sum / (s.params.n : NUM)) ∧
      t.measurementIndex = 0 ∧ t.holdTicks = 0 ∧ t.distanceAnswers = more ∧ t.pending = rest ∧
      t.stopFlag = false ∧ t.objectFlag = true ∧ t.mode = .objectPresent

/-- R136, R138, R146: over exact numbers, a completed round is held for exactly `HOLD_TICKS`
OBJECT_PRESENT ticks; the last of them clears the object condition, and the result stays. -/
def Obligations.HoldLastsHoldTicks : Prop :=
  ∀ (s : State) (rest : List Arrival),
    s.params.num = .exact → s.tickEnable = true → s.stopFlag = false → s.objectFlag = true →
    s.measurementComplete = true → s.holdTicks = 0 →
    s.pending = List.replicate s.params.holdTicks (.word ⟨0x8#4, []⟩) ++ rest →
    (∀ k, k < s.params.holdTicks → ∃ t, core.run k s = .next t ∧ t.holdTicks = k ∧
      t.objectFlag = true ∧ t.measurementComplete = true) ∧
    ∃ t, core.run s.params.holdTicks s = .next t ∧ t.objectFlag = false ∧
      t.measurementComplete = false ∧ t.holdTicks = 0 ∧ t.mode = .objectPresent ∧
      t.passFlag = s.passFlag ∧ t.measurementBuffer = s.measurementBuffer ∧
      t.distanceAnswers = s.distanceAnswers ∧ t.pending = rest

/-! ## Flags -/

/-- R171, R172, R173, R174: each flag operation's word; it writes its one flag and nothing else, in
every state. -/
def Obligations.FlagOperationsWriteOneFlag : Prop :=
  ∀ s : State,
    (encode .stopSet = ⟨0x9#4, []⟩ ∧
      exec .stopSet s = .next { s with stopFlag := true, report := ⟨.ok, []⟩ }) ∧
    (encode .stopClr = ⟨0xA#4, []⟩ ∧
      exec .stopClr s = .next { s with stopFlag := false, report := ⟨.ok, []⟩ }) ∧
    (encode .objSet = ⟨0xB#4, []⟩ ∧
      exec .objSet s = .next { s with objectFlag := true, report := ⟨.ok, []⟩ }) ∧
    (encode .objClr = ⟨0xC#4, []⟩ ∧
      exec .objClr s = .next { s with objectFlag := false, report := ⟨.ok, []⟩ })

/-- R233, R198: a stop request acts on the actuator at the next TICK, not at the button edge. -/
def Obligations.StopRequestActsAtNextTick : Prop :=
  ∀ s : State, s.tickEnable = true →
    ∃ t u, exec .stopSet s = .next t ∧ t.actEnable = s.actEnable ∧ t.mode = s.mode ∧
      exec .tick t = .next u ∧ u.actEnable = false ∧ u.mode = .stopped ∧
      u.actPower = s.actPower ∧ u.objectFlag = s.objectFlag

/-! ## Reset -/

/-- R50, R220: RESET's word; it completes in every state and gives every register the value of R50's
table; the parameters, and what the environment has yet to supply, are no registers. The buffer's `N`
elements are unspecified. -/
def Obligations.ResetGivesEveryRegisterItsValue : Prop :=
  encode .reset = ⟨0xF#4, []⟩ ∧
  ∀ s : State, ∃ (buffer : Memory) (draws : Nat), buffer.length = s.params.n ∧
    exec .reset s = .next {
      params := s.params
      kp := .unwritten
      ki := .unwritten
      kd := .unwritten
      setpoint := .unwritten
      integralAccumulator := .unwritten
      previousError := .unwritten
      mode := .stopped
      pidTicks := 0
      measurementTicks := 0
      displayTicks := 0
      objDisplayTicks := 0
      holdTicks := 0
      measurementBuffer := buffer
      measurementIndex := 0
      measurementComplete := false
      passFlag := false
      tickEnable := true
      lastRpm := 0
      stopFlag := false
      objectFlag := false
      actEnable := false
      actPower := 0
      disp := .blank
      pending := s.pending
      potAnswers := s.potAnswers
      rpmAnswers := s.rpmAnswers
      distanceAnswers := s.distanceAnswers
      freeDraws := draws
      report := ⟨.ok, []⟩ }

/-- R50, R221: the registers of the model's reset state. Its parameters (`TP`), its empty queues and
its report are the model's own choices (log entries 2 and 10). -/
def Obligations.ResetStateRegisters : Prop :=
  (∀ name, State.reset.pidReg name = .unwritten) ∧ State.reset.mode = .stopped ∧
  State.reset.pidTicks = 0 ∧ State.reset.measurementTicks = 0 ∧ State.reset.displayTicks = 0 ∧
  State.reset.objDisplayTicks = 0 ∧ State.reset.holdTicks = 0 ∧
  State.reset.measurementBuffer.length = State.reset.params.n ∧
  State.reset.measurementIndex = 0 ∧ State.reset.measurementComplete = false ∧
  State.reset.passFlag = false ∧ State.reset.tickEnable = true ∧ State.reset.lastRpm = 0 ∧
  State.reset.stopFlag = false ∧ State.reset.objectFlag = false ∧
  State.reset.actEnable = false ∧ State.reset.actPower = 0 ∧ State.reset.disp = .blank

/-! ## Memory -/

/-- R61: the buffer's access primitives: inside `0 .. N-1` a write is read back and changes no other
element and no length; outside it both are refused. -/
def Obligations.BufferReadAfterWrite : Prop :=
  ∀ (m : Memory) (i : Nat) (v : NUM),
    (i < m.length → ∃ m', memWrite m i v = .ok m' ∧ m'.length = m.length ∧ memRead m' i = .ok v ∧
      ∀ j, j ≠ i → memRead m' j = memRead m j) ∧
    (m.length ≤ i → memWrite m i v = .error (.refused (.bufferIndexOutOfRange i)) ∧
      memRead m i = .error (.refused (.bufferIndexOutOfRange i)))

/-! ## Invariants and whole-machine rules -/

/-- R47: every step keeps the scheduler invariants, in every number system. -/
def Obligations.SchedulerInvariantKept : Prop :=
  ∀ s t : State, s.SchedulerInv → step s = .next t → t.SchedulerInv

/-- R47: they hold after RESET, of the reset state and of any state that RESET leaves. -/
def Obligations.SchedulerInvariantAtReset : Prop :=
  State.reset.SchedulerInv ∧ ∀ s t : State, exec .reset s = .next t → t.SchedulerInv

/-- R28: every step keeps the accumulator, when it is written, within `±MAX_INTEGRAL`, in every
number system. -/
def Obligations.AccumulatorInvariantKept : Prop :=
  State.reset.AccumulatorBounded ∧
  ∀ s t : State, s.AccumulatorBounded → step s = .next t → t.AccumulatorBounded

/-- 00_scope.md section 3: a parameter "is fixed before reset and no operation changes it". That the
parameters stand in State is the model's choice (log entry 1). -/
def Obligations.ParametersNeverChange : Prop :=
  ∀ s t : State, step s = .next t → t.params = s.params

/-- R27: a written PID register stays written until the next RESET; INIT writes all six. -/
def Obligations.WrittenRegistersStayWritten : Prop :=
  ∀ (i : Instr) (s t : State), exec i s = .next t →
    (i ≠ .reset → ∀ name, s.pidReg name ≠ .unwritten → t.pidReg name ≠ .unwritten) ∧
    (i = .reset → ∀ name, t.pidReg name = .unwritten) ∧
    (∀ a b c d, i = .init a b c d → t.Initialised)

/-- R195, R222 and 60_exceptions.md ("no crash/abort path in the core"): once INIT is done, over
exact numbers and with an environment that keeps its contract, no step ever stops, and only a
RESET makes INIT necessary again. -/
def Obligations.InitialisedBlockNeverStops : Prop :=
  ∀ s : State, s.Safe →
    (∃ t, step s = .next t) ∧
    ∀ t, step s = .next t →
      (∀ arrival rest, s.pending = arrival :: rest →
        decodeArrival s.params.num arrival ≠ .ok .reset) → t.Safe

/-- R48: on the assembled block only INIT, RESET and TICK write the accumulator and the previous
error, and only TICK and RESET write the buffer, its index, the round's status and the tick
counters. -/
def Obligations.SchedulerOwnsPidAndBuffer : Prop :=
  ∀ (i : Instr) (s t : State), s.params.standalonePid = false → exec i s = .next t →
    i ≠ .tick → i ≠ .reset →
    t.measurementBuffer = s.measurementBuffer ∧ t.measurementIndex = s.measurementIndex ∧
    t.measurementComplete = s.measurementComplete ∧ t.passFlag = s.passFlag ∧
    t.pidTicks = s.pidTicks ∧ t.measurementTicks = s.measurementTicks ∧
    t.displayTicks = s.displayTicks ∧ t.objDisplayTicks = s.objDisplayTicks ∧
    t.holdTicks = s.holdTicks ∧
    ((∀ a b c d, i ≠ .init a b c d) →
      t.integralAccumulator = s.integralAccumulator ∧ t.previousError = s.previousError)

/-- R30, R39, 10_state.md section 6: `mode`, `pass_flag`, the output registers and the trace are read
by no operation: two states that differ in these alone end alike, and the next states differ in
these alone. -/
def Obligations.OutputRegistersAreReadByNoOperation : Prop :=
  ∀ (i : Instr) (s : State) (m : Mode) (p e : Bool) (w : Int) (d : Frame) (r : Report),
    let s' : State := { s with
      mode := m, passFlag := p, actEnable := e, actPower := w, disp := d, report := r }
    (∀ f, exec i s = .fault f ↔ exec i s' = .fault f) ∧
    (∀ f, exec i s = .refused f ↔ exec i s' = .refused f) ∧
    (∀ t, exec i s = .next t → ∃ t', exec i s' = .next t' ∧
      t = { t' with mode := t.mode, passFlag := t.passFlag, actEnable := t.actEnable,
                    actPower := t.actPower, disp := t.disp, report := t.report })
end

