-- ==== Sys2Proof/Laws/Decode.lean ====
section
/-! SUPPORT. What reading operands, assembling and encoding do. -/

namespace Sys2Proof

theorem readOperand_eq_some {num : NumSystem} {x : Operand} {v : NUM} :
    readOperand num x = some v ↔ x = .num v ∧ num.holds v = true := by
  cases x with
  | num w =>
    simp only [readOperand, Operand.num.injEq]
    split
    · constructor
      · intro h; cases h; exact ⟨rfl, ‹_›⟩
      · rintro ⟨rfl, -⟩; rfl
    · constructor
      · intro h; cases h
      · rintro ⟨rfl, h⟩; exact absurd h ‹_›
  | nonFinite => simp [readOperand]

theorem readOperands_eq_some {num : NumSystem} {xs : List Operand} {vs : List NUM} :
    readOperands num xs = some vs ↔ xs = vs.map .num ∧ vs.all num.holds = true := by
  induction xs generalizing vs with
  | nil => cases vs <;> simp [readOperands]
  | cons x xs ih =>
    cases h1 : readOperand num x with
    | none =>
      have : ∀ v, ¬ (x = .num v ∧ num.holds v = true) := fun v hv => by
        rw [readOperand_eq_some.mpr hv] at h1; cases h1
      cases vs <;> simp [readOperands, h1]
      intro hx _ hv; exact absurd ⟨hx, hv⟩ (this _)
    | some v =>
      have hv := readOperand_eq_some.mp h1
      cases h2 : readOperands num xs with
      | none =>
        have : ∀ ws, ¬ (xs = List.map Operand.num ws ∧ ws.all num.holds = true) := fun ws hw => by
          rw [ih.mpr hw] at h2; cases h2
        cases vs with
        | nil => simp [readOperands, h1, h2]
        | cons w ws =>
          simp only [readOperands, h1, h2, List.map_cons, List.cons.injEq, List.all_cons,
            Bool.and_eq_true]
          exact ⟨fun h => by (cases h), fun h => absurd ⟨h.1.2, h.2.2⟩ (this ws)⟩
      | some ws =>
        have hw := ih.mp h2
        simp only [readOperands, h1, h2, Option.some.injEq]
        constructor
        · rintro rfl; simp [hv.1, hv.2, hw.1, hw.2]
        · rintro ⟨h, -⟩
          cases vs with
          | nil => cases h
          | cons w us =>
            rw [hv.1, hw.1, List.map_cons, List.cons.injEq, Operand.num.injEq] at h
            rw [h.1, (List.map_injective_iff.mpr fun a b e => Operand.num.inj e) h.2]

/-- `assemble` is the inverse of taking an operation apart. -/
theorem assemble_eq_some {op : Opcode} {vs : List NUM} {i : Instr} :
    assemble op vs = some i ↔ op = i.opcode ∧ vs = i.operands := by
  constructor
  · intro h
    unfold assemble at h
    split at h <;> first
      | (cases h; exact ⟨BitVec.eq_of_toNat_eq ‹_›, rfl⟩)
      | cases h
  · rintro ⟨rfl, rfl⟩
    cases i <;> rfl

theorem formatOf_opcode (i : Instr) :
    ∃ f, formatOf i.opcode = some f ∧ i.operands.length = f.operandCount := by
  cases i <;> exact ⟨_, rfl, rfl⟩

/-- Everything a decoded word can be. -/
theorem decode_eq_ok {num : NumSystem} {w : OpWord} {i : Instr} (h : decode num w = .ok i) :
    ∃ vs, readOperands num w.operands = some vs ∧ assemble w.op vs = some i := by
  unfold decode at h
  split at h
  · cases h
  · split at h
    · cases h
    · split at h
      · cases h; exact ⟨_, ‹_›, ‹_›⟩
      · cases h

/-- Everything a decoded line can be. -/
theorem decodeLine_eq_ok {num : NumSystem} {line : List Token} {i : Instr}
    (h : decodeLine num line = .ok i) :
    ∃ p v, line = [.text "SET", .text p, .value (.num v)] ∧ num.holds v = true ∧
      tuningOperation p v = some i := by
  unfold decodeLine at h
  split at h
  · split at h
    · split at h
      · cases h
      · split at h
        · cases h
          have := readOperand_eq_some.mp ‹_›
          subst_vars
          exact ⟨_, _, by rw [this.1], this.2, ‹_›⟩
        · cases h
    · cases h
  · cases h

end Sys2Proof
end

