-- ==== Sys2Proof/Laws/Numeric.lean ====
section
/-! SUPPORT. What the arithmetic of Machine/Numeric.lean does, once for every user of it. -/

namespace Sys2Proof

theorem clamp_eq_max_min {x lo hi : NUM} (h : lo ≤ hi) : clamp x lo hi = max lo (min hi x) := by
  unfold clamp
  split
  · rw [max_eq_left (by exact le_trans (min_le_right _ _) (le_of_lt ‹_›))]
  · split
    · rw [min_eq_left (le_of_lt ‹_›), max_eq_right h]
    · rw [min_eq_right (not_lt.mp ‹_›), max_eq_right (not_lt.mp ‹_›)]

theorem le_clamp {x lo hi : NUM} (h : lo ≤ hi) : lo ≤ clamp x lo hi := by
  rw [clamp_eq_max_min h]; exact le_max_left _ _

theorem clamp_le {x lo hi : NUM} (h : lo ≤ hi) : clamp x lo hi ≤ hi := by
  rw [clamp_eq_max_min h]; exact max_le h (min_le_left _ _)

/-- Rule R14: for the legal output range truncation "equals rounding down". -/
theorem trunc_eq_floor {x : NUM} (h : 0 ≤ x) : trunc x = ⌊x⌋ := by
  rw [Rat.floor_def', trunc, Int.tdiv_eq_ediv_of_nonneg (Rat.num_nonneg.mpr h)]

namespace NumSystem

@[simp] theorem holds_exact (v : NUM) : holds .exact v = true := rfl
@[simp] theorem into_exact (v : NUM) : into .exact v = v := rfl
@[simp] theorem add_exact (a b : NUM) : add .exact a b = some (a + b) := rfl
@[simp] theorem sub_exact (a b : NUM) : sub .exact a b = some (a - b) := rfl
@[simp] theorem mul_exact (a b : NUM) : mul .exact a b = some (a * b) := rfl
@[simp] theorem div_exact (a : NUM) (k : Nat) : div .exact a k = some (a / (k : NUM)) := rfl

theorem sumFrom_exact (acc : NUM) (l : List NUM) : sumFrom .exact acc l = some (acc + l.sum) := by
  induction l generalizing acc with
  | nil => simp [sumFrom]
  | cons x xs ih => simp [sumFrom, ih, add_assoc]

theorem sum_exact (l : List NUM) : sum .exact l = some l.sum := by
  cases l with
  | nil => rfl
  | cons x xs => simp [sum, sumFrom_exact]

/-- Over exact numbers `Mean` is the sum divided by `N`. -/
@[simp] theorem mean_exact (n : Nat) (l : List NUM) : mean .exact n l = some (l.sum / (n : NUM)) := by
  simp [mean, sum_exact]

theorem holds_into {num : NumSystem} (h : num.holds 0 = true) (x : NUM) :
    num.holds (num.into x) = true := by
  cases num with
  | exact => rfl
  | finite lo hi =>
    simp only [holds, Bool.and_eq_true, decide_eq_true_eq] at h ⊢
    have hb := le_trans h.1 h.2
    exact ⟨le_clamp hb, clamp_le hb⟩

/-- Bringing a number into the range of a system that has 0 keeps it within `[0, 100]`. -/
theorem into_percentage {num : NumSystem} {x : NUM} (h : num.holds 0 = true) (h0 : 0 ≤ x)
    (h1 : x ≤ 100) : 0 ≤ num.into x ∧ num.into x ≤ 100 := by
  cases num with
  | exact => exact ⟨h0, h1⟩
  | finite lo hi =>
    simp only [holds, Bool.and_eq_true, decide_eq_true_eq] at h
    simp only [into, clamp_eq_max_min (le_trans h.1 h.2)]
    exact ⟨le_max_of_le_right (le_min h.2 h0),
      max_le (le_trans h.1 (by norm_num)) (le_trans (min_le_right _ _) h1)⟩

/-- A result out of a finite range is an overflow (R113). -/
theorem arith_eq_none {lo hi a b : NUM} {op : ArithOp}
    (h : op.exact a b < lo ∨ hi < op.exact a b) : arith (.finite lo hi) op a b = none := by
  simp only [arith]
  rw [if_neg]
  rintro ⟨h1, h2⟩
  rcases h with h | h <;> linarith

end NumSystem

/-- Rule R10 with log entry 3: 0 is a value of the instance's number system. -/
theorem Params.holds_zero (p : Params) : p.num.holds 0 = true := by
  obtain ⟨-, -, -, -, -, -, -, -, -, -, h⟩ := p.legal
  simp only [Profile.numbers, List.all_cons, Bool.and_eq_true] at h
  exact h.1

end Sys2Proof
end

