-- ==== Sys2Proof/Laws/Ops.lean ====
section
/-! SUPPORT. Everything the shared operations can do, cited instead of unfolding them. -/

namespace Sys2Proof.NumSystem

/-- An operation overflows exactly when its exact result leaves the range (R113). -/
theorem arith_eq_none_iff {num : NumSystem} {op : ArithOp} {a b : NUM} :
    num.arith op a b = none ↔ num.Leaves op a b := by
  cases num with
  | exact => simp [arith, Leaves]
  | finite lo hi =>
    refine ⟨fun h => ?_, arith_eq_none⟩
    simp only [arith, ite_eq_right_iff, reduceCtorEq, imp_false, not_and_or, not_le] at h
    exact h

/-- Going on with the elements after those already summed. -/
theorem sum_append {num : NumSystem} {l : List NUM} (h : l ≠ []) (rest : List NUM) :
    num.sum (l ++ rest) = (num.sum l).bind fun total => num.sumFrom total rest := by
  obtain ⟨x, xs, rfl⟩ := List.exists_cons_of_ne_nil h
  simp only [sum, List.cons_append]
  induction xs generalizing x with
  | nil => rfl
  | cons y ys ih =>
    simp only [List.cons_append, sumFrom]
    cases num.add x y with
    | none => rfl
    | some t => exact ih t (List.cons_ne_nil _ _)

theorem RunningSum.ne_nil {num : NumSystem} {l : List NUM} {total : NUM} (h : num.RunningSum l total) :
    l ≠ [] := by
  cases h <;> simp

theorem RunningSum.sum_eq {num : NumSystem} {l : List NUM} {total : NUM}
    (h : num.RunningSum l total) : num.sum l = some total := by
  induction h with
  | first x => rfl
  | next y hl ha ih => rw [sum_append hl.ne_nil, ih]; simp [sumFrom, ha]

/-- `Mean` of a buffer whose additions and whose division answer (R14). -/
theorem RunningSum.mean_eq {num : NumSystem} {l : List NUM} {total mean : NUM} {n : Nat}
    (h : num.RunningSum l total) (hd : num.div total n = some mean) : num.mean n l = some mean := by
  simp only [NumSystem.mean, h.sum_eq, Option.bind_some, hd]

/-- `Mean` of a buffer one of whose additions overflows. -/
theorem RunningSum.mean_eq_none {num : NumSystem} {pre : List NUM} {total y : NUM} (post : List NUM)
    (n : Nat) (h : num.RunningSum pre total) (ho : num.Leaves .add total y) :
    num.mean n (pre ++ y :: post) = none := by
  have ha : num.add total y = none := arith_eq_none_iff.mpr ho
  simp [NumSystem.mean, sum_append h.ne_nil, h.sum_eq, sumFrom, ha]

end Sys2Proof.NumSystem

namespace Sys2Proof.Machine

theorem Act.bind_eq_ok {α β : Type} {x : Act α} {f : α → Act β} {b : β} :
    (x >>= f) = .ok b ↔ ∃ a, x = .ok a ∧ f a = .ok b := by
  cases x with
  | error e => exact ⟨fun h => (by cases h), fun ⟨_, h, _⟩ => (by cases h)⟩
  | ok a => exact ⟨fun h => ⟨a, rfl, h⟩, fun ⟨_, h, h'⟩ => (by cases h; exact h')⟩

theorem Act.ok_bind {α β : Type} (a : α) (f : α → Act β) : ((Except.ok a : Act α) >>= f) = f a := rfl

theorem Act.error_bind {α β : Type} (e : Stop) (f : α → Act β) :
    ((Except.error e : Act α) >>= f) = .error e := rfl

theorem finish_eq_next {x : Act State} {t : State} : finish x = .next t ↔ x = .ok t := by
  rcases x with (f | r) | s <;> simp [finish]

theorem finish_eq_fault {x : Act State} {f : Fault} : finish x = .fault f ↔ x = .error (.fault f) := by
  rcases x with (f | r) | s <;> simp [finish]

theorem finish_eq_refused {x : Act State} {r : Refusal} :
    finish x = .refused r ↔ x = .error (.refused r) := by
  rcases x with (f | r) | s <;> simp [finish]

@[simp] theorem finish_ok (t : State) : finish (.ok t) = .next t := rfl

theorem orOverflow_eq_ok {α : Type} {x : Option α} {v : α} : orOverflow x = .ok v ↔ x = some v := by
  cases x <;> simp [orOverflow, raise]

@[simp] theorem orOverflow_some {α : Type} (v : α) : orOverflow (some v) = .ok v := rfl

theorem memWrite_eq_ok {m m' : Memory} {i : Nat} {v : NUM} :
    memWrite m i v = .ok m' ↔ i < m.length ∧ m' = m.set i v := by
  unfold memWrite
  split
  · exact ⟨fun h => (by cases h; exact ⟨‹_›, rfl⟩), fun ⟨_, h⟩ => (by rw [h])⟩
  · exact ⟨fun h => (by cases h), fun ⟨h, _⟩ => absurd h ‹_›⟩

/-- Every buffer operation keeps the buffer's form. -/
theorem memWrite_wf {m m' : Memory} {n i : Nat} {v : NUM} (h : memWrite m i v = .ok m')
    (hm : m.wf n = true) : m'.wf n = true := by
  obtain ⟨-, rfl⟩ := memWrite_eq_ok.mp h
  simpa [Memory.wf] using hm

@[simp] theorem freeBuffer_length (start n : Nat) : (freeBuffer start n).length = n := by
  simp [freeBuffer]

theorem freeBuffer_wf (start n : Nat) : (freeBuffer start n).wf n = true := by simp [Memory.wf]

theorem reset_buffer_wf :
    State.reset.measurementBuffer.wf State.reset.params.n = true := freeBuffer_wf _ _

theorem readPid_eq_ok {s : State} {name : PidName} {v : NUM} :
    s.readPid name = .ok v ↔ s.pidReg name = .written v := by
  unfold State.readPid
  cases s.pidReg name <;> simp [raise]

theorem readPid_unwritten {s : State} {name : PidName} (h : s.pidReg name = .unwritten) :
    s.readPid name = .error (.fault (.useBeforeInit name)) := by
  simp [State.readPid, h, raise]

/-! ## The collaborators' answers -/

theorem potRead_eq_ok {s t : State} {p : NUM} : s.potRead = .ok (p, t) ↔
    ∃ rest draws, s.PotNext p rest draws ∧ t = { s with potAnswers := rest, freeDraws := draws } := by
  unfold State.potRead State.PotNext
  rcases hq : s.potAnswers with _ | ⟨q, qs⟩
  · constructor
    · intro h; cases h; exact ⟨[], _, .inr ⟨rfl, rfl, rfl, rfl⟩, by rw [← hq]⟩
    · rintro ⟨rest, draws, ⟨h, -⟩ | ⟨-, rfl, rfl, rfl⟩, rfl⟩
      · cases h
      · simp [← hq]
  · constructor
    · intro h
      dsimp only at h
      split at h
      · cases h; exact ⟨_, _, .inl ⟨rfl, rfl, ‹_›⟩, rfl⟩
      · cases h
    · rintro ⟨rest, draws, ⟨h, rfl, hc⟩ | ⟨h, -⟩, rfl⟩
      · cases h; simp [hc]
      · cases h

theorem rpmRead_eq_ok {s t : State} {r : NUM} : s.rpmRead = .ok (r, t) ↔
    ∃ rest draws, s.RpmNext s.freeDraws r rest draws ∧
      t = { s with rpmAnswers := rest, freeDraws := draws } := by
  unfold State.rpmRead State.RpmNext
  rcases hq : s.rpmAnswers with _ | ⟨q, qs⟩
  · constructor
    · intro h; cases h; exact ⟨[], _, .inr ⟨rfl, rfl, rfl, rfl⟩, by rw [← hq]⟩
    · rintro ⟨rest, draws, ⟨h, -⟩ | ⟨-, rfl, rfl, rfl⟩, rfl⟩
      · cases h
      · simp [← hq]
  · constructor
    · intro h
      dsimp only at h
      split at h
      · cases h; exact ⟨_, _, .inl ⟨rfl, rfl, ‹_›⟩, rfl⟩
      · cases h
    · rintro ⟨rest, draws, ⟨h, rfl, hc⟩ | ⟨h, -⟩, rfl⟩
      · cases h; simp [hc]
      · cases h

/-- The conditions a distance answer adds to the trace (R191). -/
def timeoutConditions (a : DistanceAnswer) : List Condition :=
  if a = .timeout then [.sensorTimeout] else []

theorem freeDistanceAnswer_contract (params : Params) (k : Nat) :
    distanceContract params (freeDistanceAnswer params k) = true := by
  obtain ⟨-, -, -, -, -, -, -, -, -, hd, -⟩ := params.legal
  unfold freeDistanceAnswer
  split
  · rfl
  · simp [distanceContract, le_clamp hd, clamp_le hd]

theorem distanceNext_contract {s : State} {a : DistanceAnswer} {rest : List DistanceAnswer}
    {draws : Nat} (h : s.DistanceNext a rest draws) : distanceContract s.params a = true := by
  rcases h with ⟨-, -, h⟩ | ⟨-, -, -, rfl⟩
  · exact h
  · exact freeDistanceAnswer_contract _ _

theorem distanceRead_eq_ok {s t : State} {v : NUM} : s.distanceRead = .ok (v, t) ↔
    ∃ a rest draws, s.DistanceNext a rest draws ∧ v = distanceValue s.params a ∧
      t = { s with
        distanceAnswers := rest, freeDraws := draws,
        report := ⟨s.report.response, s.report.conditions ++ timeoutConditions a⟩ } := by
  unfold State.distanceRead State.DistanceNext
  rcases hq : s.distanceAnswers with _ | ⟨_ | _, qs⟩
  · constructor
    · intro h
      refine ⟨freeDistanceAnswer s.params s.freeDraws, [], _, .inr ⟨rfl, rfl, rfl, rfl⟩, ?_⟩
      dsimp only at h
      split at h <;> (cases h; rename_i ha; simp [ha, distanceValue, timeoutConditions, State.met, ← hq])
    · rintro ⟨a, rest, draws, ⟨h, -⟩ | ⟨-, rfl, rfl, rfl⟩, rfl, rfl⟩
      · cases h
      · cases ha : freeDistanceAnswer s.params s.freeDraws <;>
          simp [distanceValue, timeoutConditions, State.met, ← hq]
  · constructor
    · intro h
      dsimp only at h
      split at h
      · cases h; exact ⟨_, _, _, .inl ⟨rfl, rfl, ‹_›⟩, rfl, by simp [timeoutConditions]⟩
      · cases h
    · rintro ⟨a, rest, draws, ⟨h, rfl, hc⟩ | ⟨h, -⟩, rfl, rfl⟩
      · cases h; simp [hc, distanceValue, timeoutConditions]
      · cases h
  · constructor
    · intro h; cases h; exact ⟨_, _, _, .inl ⟨rfl, rfl, rfl⟩, rfl, rfl⟩
    · rintro ⟨a, rest, draws, ⟨h, rfl, hc⟩ | ⟨h, -⟩, rfl, rfl⟩
      · cases h; rfl
      · cases h

end Sys2Proof.Machine
end

