-- ==== Sys2Proof/Laws/PerInstr.lean ====
section
/-! SUPPORT. Statements about each operation as syntax, one lemma per constructor. -/

namespace Sys2Proof.Laws

/-- Rules R81 and R82: the word of an operation has an `op` that names an operation, and as many
operands as the format of that `op` has, each of them a number. -/
def EncodedWord.Statement (i : Instr) : Prop :=
  ∃ f, formatOf (encode i).op = some f ∧ (encode i).operands.length = f.operandCount ∧
    ∀ x ∈ (encode i).operands, x ≠ .nonFinite

theorem EncodedWord.init (kp ki kd sp : NUM) : EncodedWord.Statement (.init kp ki kd sp) :=
  ⟨.G, rfl, rfl, by simp [encode, Instr.operands]⟩

theorem EncodedWord.setKp (v : NUM) : EncodedWord.Statement (.setKp v) :=
  ⟨.V, rfl, rfl, by simp [encode, Instr.operands]⟩

theorem EncodedWord.setKi (v : NUM) : EncodedWord.Statement (.setKi v) :=
  ⟨.V, rfl, rfl, by simp [encode, Instr.operands]⟩

theorem EncodedWord.setKd (v : NUM) : EncodedWord.Statement (.setKd v) :=
  ⟨.V, rfl, rfl, by simp [encode, Instr.operands]⟩

theorem EncodedWord.setSp (v : NUM) : EncodedWord.Statement (.setSp v) :=
  ⟨.V, rfl, rfl, by simp [encode, Instr.operands]⟩

theorem EncodedWord.update (m : NUM) : EncodedWord.Statement (.update m) :=
  ⟨.V, rfl, rfl, by simp [encode, Instr.operands]⟩

theorem EncodedWord.tick : EncodedWord.Statement .tick := ⟨.Z, rfl, rfl, by simp [encode, Instr.operands]⟩

theorem EncodedWord.stopSet : EncodedWord.Statement .stopSet :=
  ⟨.Z, rfl, rfl, by simp [encode, Instr.operands]⟩

theorem EncodedWord.stopClr : EncodedWord.Statement .stopClr :=
  ⟨.Z, rfl, rfl, by simp [encode, Instr.operands]⟩

theorem EncodedWord.objSet : EncodedWord.Statement .objSet :=
  ⟨.Z, rfl, rfl, by simp [encode, Instr.operands]⟩

theorem EncodedWord.objClr : EncodedWord.Statement .objClr :=
  ⟨.Z, rfl, rfl, by simp [encode, Instr.operands]⟩

theorem EncodedWord.reset : EncodedWord.Statement .reset :=
  ⟨.Z, rfl, rfl, by simp [encode, Instr.operands]⟩

end Sys2Proof.Laws
end

