-- ==== Sys2Proof/Laws/Pid.lean ====
section
/-! SUPPORT. Everything UPDATE's shared operation can do (R106). -/

namespace Sys2Proof.Machine

theorem pidInputs_eq_ok {s : State} {x : PidInputs} : s.pidInputs = .ok x ↔
    s.kp = .written x.kp ∧ s.ki = .written x.ki ∧ s.kd = .written x.kd ∧
    s.setpoint = .written x.setpoint ∧ s.integralAccumulator = .written x.accumulator ∧
    s.previousError = .written x.previousError := by
  simp only [State.pidInputs, Act.bind_eq_ok, readPid_eq_ok]
  constructor
  · rintro ⟨_, h1, _, h2, _, h3, _, h4, _, h5, _, h6, h⟩
    cases h; exact ⟨h1, h2, h3, h4, h5, h6⟩
  · rintro ⟨h1, h2, h3, h4, h5, h6⟩
    exact ⟨_, h1, _, h2, _, h3, _, h4, _, h5, _, h6, rfl⟩

/-- The check of R106 names the first unwritten register of its list. -/
theorem pidInputs_unwritten {s : State} {name : PidName}
    (h : [PidName.kp, .ki, .kd, .setpoint, .integralAccumulator, .previousError].find?
      (fun n => decide (s.pidReg n = .unwritten)) = some name) :
    s.pidInputs = .error (.fault (.useBeforeInit name)) := by
  have key : ∀ n, (∃ v, s.readPid n = .ok v ∧ s.pidReg n ≠ .unwritten) ∨
      (s.readPid n = .error (.fault (.useBeforeInit n)) ∧ s.pidReg n = .unwritten) := fun n => by
    cases hn : s.pidReg n with
    | unwritten => exact .inr ⟨readPid_unwritten hn, rfl⟩
    | written v => exact .inl ⟨v, readPid_eq_ok.mpr hn, by simp⟩
  unfold State.pidInputs
  simp only [List.find?_cons, List.find?_nil] at h
  rcases key .kp with ⟨v, e, n⟩ | ⟨e, n⟩
  · simp only [n, decide_false] at h
    rw [e, Act.ok_bind]
    rcases key .ki with ⟨v, e, n⟩ | ⟨e, n⟩
    · simp only [n, decide_false] at h
      rw [e, Act.ok_bind]
      rcases key .kd with ⟨v, e, n⟩ | ⟨e, n⟩
      · simp only [n, decide_false] at h
        rw [e, Act.ok_bind]
        rcases key .setpoint with ⟨v, e, n⟩ | ⟨e, n⟩
        · simp only [n, decide_false] at h
          rw [e, Act.ok_bind]
          rcases key .integralAccumulator with ⟨v, e, n⟩ | ⟨e, n⟩
          · simp only [n, decide_false] at h
            rw [e, Act.ok_bind]
            rcases key .previousError with ⟨v, e, n⟩ | ⟨e, n⟩
            · simp [n] at h
            · simp only [n, decide_true] at h; cases h; rw [e, Act.error_bind]
          · simp only [n, decide_true] at h; cases h; rw [e, Act.error_bind]
        · simp only [n, decide_true] at h; cases h; rw [e, Act.error_bind]
      · simp only [n, decide_true] at h; cases h; rw [e, Act.error_bind]
    · simp only [n, decide_true] at h; cases h; rw [e, Act.error_bind]
  · simp only [n, decide_true] at h; cases h; rw [e, Act.error_bind]

/-- What UPDATE computes over exact numbers, in the terms of `max`, `min` and the floor. -/
theorem pidCompute_exact {params : Params} (h : params.num = .exact) (x : PidInputs) (m : NUM) :
    pidCompute params x m =
      let error := x.setpoint - m
      let accumulator := max (-params.maxIntegral) (min params.maxIntegral (x.accumulator + error))
      let rawOutput := x.kp * error + x.ki * accumulator + x.kd * (error - x.previousError)
      some ⟨accumulator, error, ⌊max params.minOutput (min params.maxOutput rawOutput)⌋⟩ := by
  obtain ⟨-, -, -, -, -, h0, h1, h2, -⟩ := params.legal
  have hI : -params.maxIntegral ≤ params.maxIntegral := by linarith
  unfold pidCompute
  rw [h]
  simp only [NumSystem.sub_exact, NumSystem.add_exact, NumSystem.mul_exact, bind,
    Option.bind_some, clamp_eq_max_min hI, clamp_eq_max_min h1]
  rw [trunc_eq_floor (le_trans h2 (le_max_left _ _))]

/-- What UPDATE computes in any number system is within the bounds of R107 and R108. -/
theorem pidCompute_bounds {params : Params} {x : PidInputs} {m : NUM} {r : PidResult}
    (h : pidCompute params x m = some r) :
    (-params.maxIntegral ≤ r.accumulator ∧ r.accumulator ≤ params.maxIntegral) ∧
    ∃ limited, params.minOutput ≤ limited ∧ limited ≤ params.maxOutput ∧ r.out = ⌊limited⌋ := by
  obtain ⟨-, -, -, -, -, h0, h1, h2, -⟩ := params.legal
  have hI : -params.maxIntegral ≤ params.maxIntegral := by linarith
  unfold pidCompute at h
  simp only [bind, Option.bind_eq_some_iff] at h
  obtain ⟨_, -, _, -, _, -, _, -, _, -, _, -, _, -, _, -, h⟩ := h
  cases h
  exact ⟨⟨le_clamp hI, clamp_le hI⟩, _, le_clamp h1, clamp_le h1,
    trunc_eq_floor (le_trans h2 (le_clamp h1))⟩

theorem pidUpdate_eq_ok {s t : State} {m : NUM} {out : Int} : s.pidUpdate m = .ok (out, t) ↔
    ∃ x r, s.pidInputs = .ok x ∧ pidCompute s.params x m = some r ∧ out = r.out ∧
      t = { s with
        integralAccumulator := .written r.accumulator, previousError := .written r.previousError } := by
  simp only [State.pidUpdate, Act.bind_eq_ok, orOverflow_eq_ok]
  constructor
  · rintro ⟨x, hx, r, hr, h⟩; cases h; exact ⟨x, r, hx, hr, rfl, rfl⟩
  · rintro ⟨x, r, hx, hr, rfl, rfl⟩; exact ⟨x, hx, r, hr, rfl⟩

/-- UPDATE's shared operation over exact numbers, all six registers written. -/
theorem pidUpdate_exact {s : State} {kp ki kd sp acc pe m : NUM} (h : s.params.num = .exact)
    (h1 : s.kp = .written kp) (h2 : s.ki = .written ki) (h3 : s.kd = .written kd)
    (h4 : s.setpoint = .written sp) (h5 : s.integralAccumulator = .written acc)
    (h6 : s.previousError = .written pe) :
    let error := sp - m
    let accumulator := max (-s.params.maxIntegral) (min s.params.maxIntegral (acc + error))
    let rawOutput := kp * error + ki * accumulator + kd * (error - pe)
    s.pidUpdate m = .ok (⌊max s.params.minOutput (min s.params.maxOutput rawOutput)⌋,
      { s with integralAccumulator := .written accumulator, previousError := .written error }) :=
  pidUpdate_eq_ok.mpr ⟨⟨kp, ki, kd, sp, acc, pe⟩, _,
    pidInputs_eq_ok.mpr ⟨h1, h2, h3, h4, h5, h6⟩, pidCompute_exact h _ _, rfl, rfl⟩

/-- A returned output of UPDATE is a percentage. -/
theorem pidUpdate_percentage {s t : State} {m : NUM} {out : Int} (h : s.pidUpdate m = .ok (out, t)) :
    0 ≤ out ∧ out ≤ 100 := by
  obtain ⟨x, r, -, hr, rfl, -⟩ := pidUpdate_eq_ok.mp h
  obtain ⟨-, limited, hlo, hhi, he⟩ := pidCompute_bounds hr
  obtain ⟨-, -, -, -, -, -, -, h2, h3, -⟩ := s.params.legal
  rw [he]
  exact ⟨Int.floor_nonneg.mpr (le_trans h2 hlo),
    Int.floor_le_iff.mpr (lt_of_le_of_lt (le_trans hhi h3) (by norm_num))⟩

theorem pidUpdate_unwritten {s : State} {m : NUM} {name : PidName}
    (h : [PidName.kp, .ki, .kd, .setpoint, .integralAccumulator, .previousError].find?
      (fun n => decide (s.pidReg n = .unwritten)) = some name) :
    s.pidUpdate m = .error (.fault (.useBeforeInit name)) := by
  unfold State.pidUpdate
  rw [pidInputs_unwritten h, Act.error_bind]

/-- The six values of an initialised controller. -/
theorem initialised_values {s : State} (h : s.Initialised) : ∃ kp ki kd sp acc pe,
    s.kp = .written kp ∧ s.ki = .written ki ∧ s.kd = .written kd ∧ s.setpoint = .written sp ∧
    s.integralAccumulator = .written acc ∧ s.previousError = .written pe := by
  have value : ∀ r : PidReg, r ≠ .unwritten → ∃ v, r = .written v := by intro r; cases r <;> simp
  obtain ⟨kp, h1⟩ := value _ (h .kp)
  obtain ⟨ki, h2⟩ := value _ (h .ki)
  obtain ⟨kd, h3⟩ := value _ (h .kd)
  obtain ⟨sp, h4⟩ := value _ (h .setpoint)
  obtain ⟨acc, h5⟩ := value _ (h .integralAccumulator)
  obtain ⟨pe, h6⟩ := value _ (h .previousError)
  exact ⟨kp, ki, kd, sp, acc, pe, h1, h2, h3, h4, h5, h6⟩

/-- What UPDATE computes when the operations answer, in any number system (R112). -/
theorem pidCompute_of_answers {params : Params} {x : PidInputs}
    {m error sum derivative pTerm iTerm dTerm pSum rawOutput : NUM}
    (e1 : params.num.sub x.setpoint m = some error)
    (e2 : params.num.add x.accumulator error = some sum)
    (e3 : params.num.sub error x.previousError = some derivative)
    (e4 : params.num.mul x.kp error = some pTerm)
    (e5 : params.num.mul x.ki (max (-params.maxIntegral) (min params.maxIntegral sum)) = some iTerm)
    (e6 : params.num.mul x.kd derivative = some dTerm) (e7 : params.num.add pTerm iTerm = some pSum)
    (e8 : params.num.add pSum dTerm = some rawOutput) :
    pidCompute params x m = some ⟨max (-params.maxIntegral) (min params.maxIntegral sum), error,
      ⌊max params.minOutput (min params.maxOutput rawOutput)⌋⟩ := by
  obtain ⟨-, -, -, -, -, h0, h1, h2, -⟩ := params.legal
  have hI : -params.maxIntegral ≤ params.maxIntegral := by linarith
  unfold pidCompute
  simp only [bind, Option.bind, clamp_eq_max_min hI, clamp_eq_max_min h1,
    trunc_eq_floor (le_trans h2 (le_max_left _ _)), e1, e2, e3, e4, e5, e6, e7, e8]

/-- UPDATE overflows exactly where R113 says. -/
theorem pidCompute_eq_none {params : Params} {x : PidInputs} {m : NUM} :
    pidCompute params x m = none ↔ UpdateOverflows params x m := by
  obtain ⟨-, -, -, -, -, h0, -⟩ := params.legal
  have hI : -params.maxIntegral ≤ params.maxIntegral := by linarith
  have key : ∀ op a b, params.num.Leaves op a b ↔ params.num.arith op a b = none := fun op a b =>
    NumSystem.arith_eq_none_iff.symm
  unfold pidCompute UpdateOverflows
  simp only [key, NumSystem.sub, NumSystem.add, NumSystem.mul, bind, clamp_eq_max_min hI]
  cases params.num.arith .sub x.setpoint m with
  | none => simp
  | some error =>
  cases h2 : params.num.arith .add x.accumulator error with
  | none => simp [h2]
  | some sum =>
  cases h3 : params.num.arith .sub error x.previousError with
  | none => simp [h2, h3]
  | some derivative =>
  cases h4 : params.num.arith .mul x.kp error with
  | none => simp [h2, h3, h4]
  | some pTerm =>
  cases h5 : params.num.arith .mul x.ki (max (-params.maxIntegral) (min params.maxIntegral sum)) with
  | none => simp [h2, h3, h4, h5]
  | some iTerm =>
  cases h6 : params.num.arith .mul x.kd derivative with
  | none => simp [h2, h3, h4, h5, h6]
  | some dTerm =>
  cases h7 : params.num.arith .add pTerm iTerm with
  | none => simp [h2, h3, h4, h5, h6, h7]
  | some pSum =>
  cases h8 : params.num.arith .add pSum dTerm <;> simp [h2, h3, h4, h5, h6, h7, h8]

/-- UPDATE's shared operation in any number system, all six registers written: done, or an overflow. -/
theorem pidUpdate_of_values {s : State} {kp ki kd sp acc pe : NUM} (m : NUM)
    (h1 : s.kp = .written kp) (h2 : s.ki = .written ki) (h3 : s.kd = .written kd)
    (h4 : s.setpoint = .written sp) (h5 : s.integralAccumulator = .written acc)
    (h6 : s.previousError = .written pe) :
    s.pidUpdate m = match pidCompute s.params ⟨kp, ki, kd, sp, acc, pe⟩ m with
      | some r => .ok (r.out, { s with
          integralAccumulator := .written r.accumulator, previousError := .written r.previousError })
      | none => .error (.fault .numOverflow) := by
  have hx : s.pidInputs = .ok ⟨kp, ki, kd, sp, acc, pe⟩ := pidInputs_eq_ok.mpr ⟨h1, h2, h3, h4, h5, h6⟩
  unfold State.pidUpdate
  rw [hx, Act.ok_bind]
  cases pidCompute s.params ⟨kp, ki, kd, sp, acc, pe⟩ m <;> rfl

/-- The bound of R108 on what UPDATE's shared operation returns. -/
theorem pidUpdate_outputBounded {s t : State} {m : NUM} {out : Int}
    (h : s.pidUpdate m = .ok (out, t)) : s.params.OutputBounded out := by
  obtain ⟨x, r, -, hr, rfl, -⟩ := pidUpdate_eq_ok.mp h
  obtain ⟨-, limited, hlo, hhi, he⟩ := pidCompute_bounds hr
  refine ⟨limited, hlo, hhi, he, fun lo hi h1 h2 => ?_⟩
  rw [he]
  exact ⟨Int.le_floor.mpr (h1 ▸ hlo), Int.cast_le.mp (le_trans (Int.floor_le _) (h2 ▸ hhi))⟩

/-- The next states of an UPDATE word: rejected (R90), or done (R106) within the bounds of R107. -/
theorem execUpdate_next_cases {s t : State} {m : NUM} (h : execUpdate m s = .next t) :
    (s.params.standalonePid = false ∧ t = s.reject .notOwner) ∨
    (s.params.standalonePid = true ∧ ∃ x r, s.pidInputs = .ok x ∧
      pidCompute s.params x m = some r ∧
      (-s.params.maxIntegral ≤ r.accumulator ∧ r.accumulator ≤ s.params.maxIntegral) ∧
      s.params.OutputBounded r.out ∧ t = { s with
        integralAccumulator := .written r.accumulator, previousError := .written r.previousError,
        report := ⟨.okOut r.out, []⟩ }) := by
  unfold execUpdate at h
  split at h
  · rw [finish_eq_next, Act.bind_eq_ok] at h
    obtain ⟨⟨out, u⟩, hu, h⟩ := h
    cases h
    obtain ⟨x, r, hx, hr, rfl, rfl⟩ := pidUpdate_eq_ok.mp hu
    exact .inr ⟨‹_›, x, r, hx, hr, (pidCompute_bounds hr).1, pidUpdate_outputBounded hu, rfl⟩
  · cases h; exact .inl ⟨Bool.eq_false_iff.mpr ‹_›, rfl⟩

end Sys2Proof.Machine
end

