-- ==== Sys2Proof/Laws/Run.lean ====
section
/-! SUPPORT. Runs of several steps (Host.Core.run). -/

namespace Sys2Proof.Machine

theorem core_run_succ_of_next (M : Host.Core) {k : Nat} {s t : M.State} (h : M.step s = .next t) :
    M.run (k + 1) s = M.run k t := by
  simp only [Host.Core.run, h]

/-- A run goes on from where a shorter run ended. -/
theorem core_run_add (M : Host.Core) {j k : Nat} {s t : M.State} (h : M.run j s = .next t) :
    M.run (j + k) s = M.run k t := by
  induction j generalizing s with
  | zero => simp only [Host.Core.run, Host.Outcome.next.injEq] at h; rw [Nat.zero_add, h]
  | succ j ih =>
    rw [Nat.add_right_comm]
    cases hs : M.step s with
    | next u => rw [core_run_succ_of_next M hs] at h ⊢; exact ih h
    | fault f => simp only [Host.Core.run, hs] at h; cases h
    | refused r => simp only [Host.Core.run, hs] at h; cases h

/-- The next states of a step: the same one, a rejection, or one operation. -/
theorem step_next_cases {s t : State} (h : step s = .next t) :
    (s.pending = [] ∧ t = s) ∨
    ∃ arrival rest, s.pending = arrival :: rest ∧
      ((∃ r, decodeArrival s.params.num arrival = .error r ∧
        t = { s with pending := rest }.reject r) ∨
       ∃ i, decodeArrival s.params.num arrival = .ok i ∧ exec i { s with pending := rest } = .next t) := by
  unfold step at h
  rcases hp : s.pending with _ | ⟨arrival, rest⟩
  · rw [hp] at h; cases h; exact .inl ⟨rfl, rfl⟩
  · rw [hp] at h
    refine .inr ⟨arrival, rest, rfl, ?_⟩
    cases hd : decodeArrival s.params.num arrival with
    | ok i => simp only [hd] at h; exact .inr ⟨i, rfl, h⟩
    | error r => simp only [hd] at h; cases h; exact .inl ⟨r, rfl, rfl⟩

/-- A TICK word at the head of the queue is a TICK. -/
theorem step_tick_word {s : State} {rest : List Arrival} (h : s.pending = .word ⟨0x8#4, []⟩ :: rest) :
    step s = exec .tick { s with pending := rest } := by
  unfold step; rw [h]; rfl

end Sys2Proof.Machine
end

