-- ==== Sys2Proof/Laws/State.lean ====
section
/-! SUPPORT. One lemma per field and update of State, so that no proof unfolds an update. -/

namespace Sys2Proof.Machine.State

variable (s : State)

@[simp] theorem respondOk_params : s.respondOk.params = s.params := rfl
@[simp] theorem respondOk_kp : s.respondOk.kp = s.kp := rfl
@[simp] theorem respondOk_ki : s.respondOk.ki = s.ki := rfl
@[simp] theorem respondOk_kd : s.respondOk.kd = s.kd := rfl
@[simp] theorem respondOk_setpoint : s.respondOk.setpoint = s.setpoint := rfl
@[simp] theorem respondOk_integralAccumulator : s.respondOk.integralAccumulator = s.integralAccumulator := rfl
@[simp] theorem respondOk_previousError : s.respondOk.previousError = s.previousError := rfl
@[simp] theorem respondOk_mode : s.respondOk.mode = s.mode := rfl
@[simp] theorem respondOk_pidTicks : s.respondOk.pidTicks = s.pidTicks := rfl
@[simp] theorem respondOk_measurementTicks : s.respondOk.measurementTicks = s.measurementTicks := rfl
@[simp] theorem respondOk_displayTicks : s.respondOk.displayTicks = s.displayTicks := rfl
@[simp] theorem respondOk_objDisplayTicks : s.respondOk.objDisplayTicks = s.objDisplayTicks := rfl
@[simp] theorem respondOk_holdTicks : s.respondOk.holdTicks = s.holdTicks := rfl
@[simp] theorem respondOk_measurementBuffer : s.respondOk.measurementBuffer = s.measurementBuffer := rfl
@[simp] theorem respondOk_measurementIndex : s.respondOk.measurementIndex = s.measurementIndex := rfl
@[simp] theorem respondOk_measurementComplete : s.respondOk.measurementComplete = s.measurementComplete := rfl
@[simp] theorem respondOk_passFlag : s.respondOk.passFlag = s.passFlag := rfl
@[simp] theorem respondOk_tickEnable : s.respondOk.tickEnable = s.tickEnable := rfl
@[simp] theorem respondOk_lastRpm : s.respondOk.lastRpm = s.lastRpm := rfl
@[simp] theorem respondOk_stopFlag : s.respondOk.stopFlag = s.stopFlag := rfl
@[simp] theorem respondOk_objectFlag : s.respondOk.objectFlag = s.objectFlag := rfl
@[simp] theorem respondOk_actEnable : s.respondOk.actEnable = s.actEnable := rfl
@[simp] theorem respondOk_actPower : s.respondOk.actPower = s.actPower := rfl
@[simp] theorem respondOk_disp : s.respondOk.disp = s.disp := rfl
@[simp] theorem respondOk_pending : s.respondOk.pending = s.pending := rfl
@[simp] theorem respondOk_potAnswers : s.respondOk.potAnswers = s.potAnswers := rfl
@[simp] theorem respondOk_rpmAnswers : s.respondOk.rpmAnswers = s.rpmAnswers := rfl
@[simp] theorem respondOk_distanceAnswers : s.respondOk.distanceAnswers = s.distanceAnswers := rfl
@[simp] theorem respondOk_freeDraws : s.respondOk.freeDraws = s.freeDraws := rfl
@[simp] theorem respondOk_report : s.respondOk.report = ⟨.ok, []⟩ := rfl

@[simp] theorem respondOut_params (out : Int) : (s.respondOut out).params = s.params := rfl
@[simp] theorem respondOut_kp (out : Int) : (s.respondOut out).kp = s.kp := rfl
@[simp] theorem respondOut_ki (out : Int) : (s.respondOut out).ki = s.ki := rfl
@[simp] theorem respondOut_kd (out : Int) : (s.respondOut out).kd = s.kd := rfl
@[simp] theorem respondOut_setpoint (out : Int) : (s.respondOut out).setpoint = s.setpoint := rfl
@[simp] theorem respondOut_integralAccumulator (out : Int) : (s.respondOut out).integralAccumulator = s.integralAccumulator := rfl
@[simp] theorem respondOut_previousError (out : Int) : (s.respondOut out).previousError = s.previousError := rfl
@[simp] theorem respondOut_mode (out : Int) : (s.respondOut out).mode = s.mode := rfl
@[simp] theorem respondOut_pidTicks (out : Int) : (s.respondOut out).pidTicks = s.pidTicks := rfl
@[simp] theorem respondOut_measurementTicks (out : Int) : (s.respondOut out).measurementTicks = s.measurementTicks := rfl
@[simp] theorem respondOut_displayTicks (out : Int) : (s.respondOut out).displayTicks = s.displayTicks := rfl
@[simp] theorem respondOut_objDisplayTicks (out : Int) : (s.respondOut out).objDisplayTicks = s.objDisplayTicks := rfl
@[simp] theorem respondOut_holdTicks (out : Int) : (s.respondOut out).holdTicks = s.holdTicks := rfl
@[simp] theorem respondOut_measurementBuffer (out : Int) : (s.respondOut out).measurementBuffer = s.measurementBuffer := rfl
@[simp] theorem respondOut_measurementIndex (out : Int) : (s.respondOut out).measurementIndex = s.measurementIndex := rfl
@[simp] theorem respondOut_measurementComplete (out : Int) : (s.respondOut out).measurementComplete = s.measurementComplete := rfl
@[simp] theorem respondOut_passFlag (out : Int) : (s.respondOut out).passFlag = s.passFlag := rfl
@[simp] theorem respondOut_tickEnable (out : Int) : (s.respondOut out).tickEnable = s.tickEnable := rfl
@[simp] theorem respondOut_lastRpm (out : Int) : (s.respondOut out).lastRpm = s.lastRpm := rfl
@[simp] theorem respondOut_stopFlag (out : Int) : (s.respondOut out).stopFlag = s.stopFlag := rfl
@[simp] theorem respondOut_objectFlag (out : Int) : (s.respondOut out).objectFlag = s.objectFlag := rfl
@[simp] theorem respondOut_actEnable (out : Int) : (s.respondOut out).actEnable = s.actEnable := rfl
@[simp] theorem respondOut_actPower (out : Int) : (s.respondOut out).actPower = s.actPower := rfl
@[simp] theorem respondOut_disp (out : Int) : (s.respondOut out).disp = s.disp := rfl
@[simp] theorem respondOut_pending (out : Int) : (s.respondOut out).pending = s.pending := rfl
@[simp] theorem respondOut_potAnswers (out : Int) : (s.respondOut out).potAnswers = s.potAnswers := rfl
@[simp] theorem respondOut_rpmAnswers (out : Int) : (s.respondOut out).rpmAnswers = s.rpmAnswers := rfl
@[simp] theorem respondOut_distanceAnswers (out : Int) : (s.respondOut out).distanceAnswers = s.distanceAnswers := rfl
@[simp] theorem respondOut_freeDraws (out : Int) : (s.respondOut out).freeDraws = s.freeDraws := rfl
@[simp] theorem respondOut_report (out : Int) : (s.respondOut out).report = ⟨.okOut out, []⟩ := rfl

@[simp] theorem met_params (c : Condition) : (s.met c).params = s.params := rfl
@[simp] theorem met_kp (c : Condition) : (s.met c).kp = s.kp := rfl
@[simp] theorem met_ki (c : Condition) : (s.met c).ki = s.ki := rfl
@[simp] theorem met_kd (c : Condition) : (s.met c).kd = s.kd := rfl
@[simp] theorem met_setpoint (c : Condition) : (s.met c).setpoint = s.setpoint := rfl
@[simp] theorem met_integralAccumulator (c : Condition) : (s.met c).integralAccumulator = s.integralAccumulator := rfl
@[simp] theorem met_previousError (c : Condition) : (s.met c).previousError = s.previousError := rfl
@[simp] theorem met_mode (c : Condition) : (s.met c).mode = s.mode := rfl
@[simp] theorem met_pidTicks (c : Condition) : (s.met c).pidTicks = s.pidTicks := rfl
@[simp] theorem met_measurementTicks (c : Condition) : (s.met c).measurementTicks = s.measurementTicks := rfl
@[simp] theorem met_displayTicks (c : Condition) : (s.met c).displayTicks = s.displayTicks := rfl
@[simp] theorem met_objDisplayTicks (c : Condition) : (s.met c).objDisplayTicks = s.objDisplayTicks := rfl
@[simp] theorem met_holdTicks (c : Condition) : (s.met c).holdTicks = s.holdTicks := rfl
@[simp] theorem met_measurementBuffer (c : Condition) : (s.met c).measurementBuffer = s.measurementBuffer := rfl
@[simp] theorem met_measurementIndex (c : Condition) : (s.met c).measurementIndex = s.measurementIndex := rfl
@[simp] theorem met_measurementComplete (c : Condition) : (s.met c).measurementComplete = s.measurementComplete := rfl
@[simp] theorem met_passFlag (c : Condition) : (s.met c).passFlag = s.passFlag := rfl
@[simp] theorem met_tickEnable (c : Condition) : (s.met c).tickEnable = s.tickEnable := rfl
@[simp] theorem met_lastRpm (c : Condition) : (s.met c).lastRpm = s.lastRpm := rfl
@[simp] theorem met_stopFlag (c : Condition) : (s.met c).stopFlag = s.stopFlag := rfl
@[simp] theorem met_objectFlag (c : Condition) : (s.met c).objectFlag = s.objectFlag := rfl
@[simp] theorem met_actEnable (c : Condition) : (s.met c).actEnable = s.actEnable := rfl
@[simp] theorem met_actPower (c : Condition) : (s.met c).actPower = s.actPower := rfl
@[simp] theorem met_disp (c : Condition) : (s.met c).disp = s.disp := rfl
@[simp] theorem met_pending (c : Condition) : (s.met c).pending = s.pending := rfl
@[simp] theorem met_potAnswers (c : Condition) : (s.met c).potAnswers = s.potAnswers := rfl
@[simp] theorem met_rpmAnswers (c : Condition) : (s.met c).rpmAnswers = s.rpmAnswers := rfl
@[simp] theorem met_distanceAnswers (c : Condition) : (s.met c).distanceAnswers = s.distanceAnswers := rfl
@[simp] theorem met_freeDraws (c : Condition) : (s.met c).freeDraws = s.freeDraws := rfl
@[simp] theorem met_report (c : Condition) : (s.met c).report = ⟨s.report.response, s.report.conditions ++ [c]⟩ := rfl

@[simp] theorem reject_params (r : RejectReason) : (s.reject r).params = s.params := rfl
@[simp] theorem reject_kp (r : RejectReason) : (s.reject r).kp = s.kp := rfl
@[simp] theorem reject_ki (r : RejectReason) : (s.reject r).ki = s.ki := rfl
@[simp] theorem reject_kd (r : RejectReason) : (s.reject r).kd = s.kd := rfl
@[simp] theorem reject_setpoint (r : RejectReason) : (s.reject r).setpoint = s.setpoint := rfl
@[simp] theorem reject_integralAccumulator (r : RejectReason) : (s.reject r).integralAccumulator = s.integralAccumulator := rfl
@[simp] theorem reject_previousError (r : RejectReason) : (s.reject r).previousError = s.previousError := rfl
@[simp] theorem reject_mode (r : RejectReason) : (s.reject r).mode = s.mode := rfl
@[simp] theorem reject_pidTicks (r : RejectReason) : (s.reject r).pidTicks = s.pidTicks := rfl
@[simp] theorem reject_measurementTicks (r : RejectReason) : (s.reject r).measurementTicks = s.measurementTicks := rfl
@[simp] theorem reject_displayTicks (r : RejectReason) : (s.reject r).displayTicks = s.displayTicks := rfl
@[simp] theorem reject_objDisplayTicks (r : RejectReason) : (s.reject r).objDisplayTicks = s.objDisplayTicks := rfl
@[simp] theorem reject_holdTicks (r : RejectReason) : (s.reject r).holdTicks = s.holdTicks := rfl
@[simp] theorem reject_measurementBuffer (r : RejectReason) : (s.reject r).measurementBuffer = s.measurementBuffer := rfl
@[simp] theorem reject_measurementIndex (r : RejectReason) : (s.reject r).measurementIndex = s.measurementIndex := rfl
@[simp] theorem reject_measurementComplete (r : RejectReason) : (s.reject r).measurementComplete = s.measurementComplete := rfl
@[simp] theorem reject_passFlag (r : RejectReason) : (s.reject r).passFlag = s.passFlag := rfl
@[simp] theorem reject_tickEnable (r : RejectReason) : (s.reject r).tickEnable = s.tickEnable := rfl
@[simp] theorem reject_lastRpm (r : RejectReason) : (s.reject r).lastRpm = s.lastRpm := rfl
@[simp] theorem reject_stopFlag (r : RejectReason) : (s.reject r).stopFlag = s.stopFlag := rfl
@[simp] theorem reject_objectFlag (r : RejectReason) : (s.reject r).objectFlag = s.objectFlag := rfl
@[simp] theorem reject_actEnable (r : RejectReason) : (s.reject r).actEnable = s.actEnable := rfl
@[simp] theorem reject_actPower (r : RejectReason) : (s.reject r).actPower = s.actPower := rfl
@[simp] theorem reject_disp (r : RejectReason) : (s.reject r).disp = s.disp := rfl
@[simp] theorem reject_pending (r : RejectReason) : (s.reject r).pending = s.pending := rfl
@[simp] theorem reject_potAnswers (r : RejectReason) : (s.reject r).potAnswers = s.potAnswers := rfl
@[simp] theorem reject_rpmAnswers (r : RejectReason) : (s.reject r).rpmAnswers = s.rpmAnswers := rfl
@[simp] theorem reject_distanceAnswers (r : RejectReason) : (s.reject r).distanceAnswers = s.distanceAnswers := rfl
@[simp] theorem reject_freeDraws (r : RejectReason) : (s.reject r).freeDraws = s.freeDraws := rfl
@[simp] theorem reject_report (r : RejectReason) : (s.reject r).report = ⟨.rejected r, conditionsOf r⟩ := rfl

@[simp] theorem setStop_params (b : Bool) : (s.setStop b).params = s.params := rfl
@[simp] theorem setStop_kp (b : Bool) : (s.setStop b).kp = s.kp := rfl
@[simp] theorem setStop_ki (b : Bool) : (s.setStop b).ki = s.ki := rfl
@[simp] theorem setStop_kd (b : Bool) : (s.setStop b).kd = s.kd := rfl
@[simp] theorem setStop_setpoint (b : Bool) : (s.setStop b).setpoint = s.setpoint := rfl
@[simp] theorem setStop_integralAccumulator (b : Bool) : (s.setStop b).integralAccumulator = s.integralAccumulator := rfl
@[simp] theorem setStop_previousError (b : Bool) : (s.setStop b).previousError = s.previousError := rfl
@[simp] theorem setStop_mode (b : Bool) : (s.setStop b).mode = s.mode := rfl
@[simp] theorem setStop_pidTicks (b : Bool) : (s.setStop b).pidTicks = s.pidTicks := rfl
@[simp] theorem setStop_measurementTicks (b : Bool) : (s.setStop b).measurementTicks = s.measurementTicks := rfl
@[simp] theorem setStop_displayTicks (b : Bool) : (s.setStop b).displayTicks = s.displayTicks := rfl
@[simp] theorem setStop_objDisplayTicks (b : Bool) : (s.setStop b).objDisplayTicks = s.objDisplayTicks := rfl
@[simp] theorem setStop_holdTicks (b : Bool) : (s.setStop b).holdTicks = s.holdTicks := rfl
@[simp] theorem setStop_measurementBuffer (b : Bool) : (s.setStop b).measurementBuffer = s.measurementBuffer := rfl
@[simp] theorem setStop_measurementIndex (b : Bool) : (s.setStop b).measurementIndex = s.measurementIndex := rfl
@[simp] theorem setStop_measurementComplete (b : Bool) : (s.setStop b).measurementComplete = s.measurementComplete := rfl
@[simp] theorem setStop_passFlag (b : Bool) : (s.setStop b).passFlag = s.passFlag := rfl
@[simp] theorem setStop_tickEnable (b : Bool) : (s.setStop b).tickEnable = s.tickEnable := rfl
@[simp] theorem setStop_lastRpm (b : Bool) : (s.setStop b).lastRpm = s.lastRpm := rfl
@[simp] theorem setStop_stopFlag (b : Bool) : (s.setStop b).stopFlag = b := rfl
@[simp] theorem setStop_objectFlag (b : Bool) : (s.setStop b).objectFlag = s.objectFlag := rfl
@[simp] theorem setStop_actEnable (b : Bool) : (s.setStop b).actEnable = s.actEnable := rfl
@[simp] theorem setStop_actPower (b : Bool) : (s.setStop b).actPower = s.actPower := rfl
@[simp] theorem setStop_disp (b : Bool) : (s.setStop b).disp = s.disp := rfl
@[simp] theorem setStop_pending (b : Bool) : (s.setStop b).pending = s.pending := rfl
@[simp] theorem setStop_potAnswers (b : Bool) : (s.setStop b).potAnswers = s.potAnswers := rfl
@[simp] theorem setStop_rpmAnswers (b : Bool) : (s.setStop b).rpmAnswers = s.rpmAnswers := rfl
@[simp] theorem setStop_distanceAnswers (b : Bool) : (s.setStop b).distanceAnswers = s.distanceAnswers := rfl
@[simp] theorem setStop_freeDraws (b : Bool) : (s.setStop b).freeDraws = s.freeDraws := rfl
@[simp] theorem setStop_report (b : Bool) : (s.setStop b).report = s.report := rfl

@[simp] theorem setObject_params (b : Bool) : (s.setObject b).params = s.params := rfl
@[simp] theorem setObject_kp (b : Bool) : (s.setObject b).kp = s.kp := rfl
@[simp] theorem setObject_ki (b : Bool) : (s.setObject b).ki = s.ki := rfl
@[simp] theorem setObject_kd (b : Bool) : (s.setObject b).kd = s.kd := rfl
@[simp] theorem setObject_setpoint (b : Bool) : (s.setObject b).setpoint = s.setpoint := rfl
@[simp] theorem setObject_integralAccumulator (b : Bool) : (s.setObject b).integralAccumulator = s.integralAccumulator := rfl
@[simp] theorem setObject_previousError (b : Bool) : (s.setObject b).previousError = s.previousError := rfl
@[simp] theorem setObject_mode (b : Bool) : (s.setObject b).mode = s.mode := rfl
@[simp] theorem setObject_pidTicks (b : Bool) : (s.setObject b).pidTicks = s.pidTicks := rfl
@[simp] theorem setObject_measurementTicks (b : Bool) : (s.setObject b).measurementTicks = s.measurementTicks := rfl
@[simp] theorem setObject_displayTicks (b : Bool) : (s.setObject b).displayTicks = s.displayTicks := rfl
@[simp] theorem setObject_objDisplayTicks (b : Bool) : (s.setObject b).objDisplayTicks = s.objDisplayTicks := rfl
@[simp] theorem setObject_holdTicks (b : Bool) : (s.setObject b).holdTicks = s.holdTicks := rfl
@[simp] theorem setObject_measurementBuffer (b : Bool) : (s.setObject b).measurementBuffer = s.measurementBuffer := rfl
@[simp] theorem setObject_measurementIndex (b : Bool) : (s.setObject b).measurementIndex = s.measurementIndex := rfl
@[simp] theorem setObject_measurementComplete (b : Bool) : (s.setObject b).measurementComplete = s.measurementComplete := rfl
@[simp] theorem setObject_passFlag (b : Bool) : (s.setObject b).passFlag = s.passFlag := rfl
@[simp] theorem setObject_tickEnable (b : Bool) : (s.setObject b).tickEnable = s.tickEnable := rfl
@[simp] theorem setObject_lastRpm (b : Bool) : (s.setObject b).lastRpm = s.lastRpm := rfl
@[simp] theorem setObject_stopFlag (b : Bool) : (s.setObject b).stopFlag = s.stopFlag := rfl
@[simp] theorem setObject_objectFlag (b : Bool) : (s.setObject b).objectFlag = b := rfl
@[simp] theorem setObject_actEnable (b : Bool) : (s.setObject b).actEnable = s.actEnable := rfl
@[simp] theorem setObject_actPower (b : Bool) : (s.setObject b).actPower = s.actPower := rfl
@[simp] theorem setObject_disp (b : Bool) : (s.setObject b).disp = s.disp := rfl
@[simp] theorem setObject_pending (b : Bool) : (s.setObject b).pending = s.pending := rfl
@[simp] theorem setObject_potAnswers (b : Bool) : (s.setObject b).potAnswers = s.potAnswers := rfl
@[simp] theorem setObject_rpmAnswers (b : Bool) : (s.setObject b).rpmAnswers = s.rpmAnswers := rfl
@[simp] theorem setObject_distanceAnswers (b : Bool) : (s.setObject b).distanceAnswers = s.distanceAnswers := rfl
@[simp] theorem setObject_freeDraws (b : Bool) : (s.setObject b).freeDraws = s.freeDraws := rfl
@[simp] theorem setObject_report (b : Bool) : (s.setObject b).report = s.report := rfl

@[simp] theorem leaveObject_params : s.leaveObject.params = s.params := rfl
@[simp] theorem leaveObject_kp : s.leaveObject.kp = s.kp := rfl
@[simp] theorem leaveObject_ki : s.leaveObject.ki = s.ki := rfl
@[simp] theorem leaveObject_kd : s.leaveObject.kd = s.kd := rfl
@[simp] theorem leaveObject_setpoint : s.leaveObject.setpoint = s.setpoint := rfl
@[simp] theorem leaveObject_integralAccumulator : s.leaveObject.integralAccumulator = s.integralAccumulator := rfl
@[simp] theorem leaveObject_previousError : s.leaveObject.previousError = s.previousError := rfl
@[simp] theorem leaveObject_mode : s.leaveObject.mode = s.mode := rfl
@[simp] theorem leaveObject_pidTicks : s.leaveObject.pidTicks = s.pidTicks := rfl
@[simp] theorem leaveObject_measurementTicks : s.leaveObject.measurementTicks = 0 := rfl
@[simp] theorem leaveObject_displayTicks : s.leaveObject.displayTicks = s.displayTicks := rfl
@[simp] theorem leaveObject_objDisplayTicks : s.leaveObject.objDisplayTicks = 0 := rfl
@[simp] theorem leaveObject_holdTicks : s.leaveObject.holdTicks = 0 := rfl
@[simp] theorem leaveObject_measurementBuffer : s.leaveObject.measurementBuffer = s.measurementBuffer := rfl
@[simp] theorem leaveObject_measurementIndex : s.leaveObject.measurementIndex = 0 := rfl
@[simp] theorem leaveObject_measurementComplete : s.leaveObject.measurementComplete = false := rfl
@[simp] theorem leaveObject_passFlag : s.leaveObject.passFlag = s.passFlag := rfl
@[simp] theorem leaveObject_tickEnable : s.leaveObject.tickEnable = s.tickEnable := rfl
@[simp] theorem leaveObject_lastRpm : s.leaveObject.lastRpm = s.lastRpm := rfl
@[simp] theorem leaveObject_stopFlag : s.leaveObject.stopFlag = s.stopFlag := rfl
@[simp] theorem leaveObject_objectFlag : s.leaveObject.objectFlag = s.objectFlag := rfl
@[simp] theorem leaveObject_actEnable : s.leaveObject.actEnable = s.actEnable := rfl
@[simp] theorem leaveObject_actPower : s.leaveObject.actPower = s.actPower := rfl
@[simp] theorem leaveObject_disp : s.leaveObject.disp = s.disp := rfl
@[simp] theorem leaveObject_pending : s.leaveObject.pending = s.pending := rfl
@[simp] theorem leaveObject_potAnswers : s.leaveObject.potAnswers = s.potAnswers := rfl
@[simp] theorem leaveObject_rpmAnswers : s.leaveObject.rpmAnswers = s.rpmAnswers := rfl
@[simp] theorem leaveObject_distanceAnswers : s.leaveObject.distanceAnswers = s.distanceAnswers := rfl
@[simp] theorem leaveObject_freeDraws : s.leaveObject.freeDraws = s.freeDraws := rfl
@[simp] theorem leaveObject_report : s.leaveObject.report = s.report := rfl

@[simp] theorem resetRegisters_params : s.resetRegisters.params = s.params := rfl
@[simp] theorem resetRegisters_kp : s.resetRegisters.kp = .unwritten := rfl
@[simp] theorem resetRegisters_ki : s.resetRegisters.ki = .unwritten := rfl
@[simp] theorem resetRegisters_kd : s.resetRegisters.kd = .unwritten := rfl
@[simp] theorem resetRegisters_setpoint : s.resetRegisters.setpoint = .unwritten := rfl
@[simp] theorem resetRegisters_integralAccumulator : s.resetRegisters.integralAccumulator = .unwritten := rfl
@[simp] theorem resetRegisters_previousError : s.resetRegisters.previousError = .unwritten := rfl
@[simp] theorem resetRegisters_mode : s.resetRegisters.mode = .stopped := rfl
@[simp] theorem resetRegisters_pidTicks : s.resetRegisters.pidTicks = 0 := rfl
@[simp] theorem resetRegisters_measurementTicks : s.resetRegisters.measurementTicks = 0 := rfl
@[simp] theorem resetRegisters_displayTicks : s.resetRegisters.displayTicks = 0 := rfl
@[simp] theorem resetRegisters_objDisplayTicks : s.resetRegisters.objDisplayTicks = 0 := rfl
@[simp] theorem resetRegisters_holdTicks : s.resetRegisters.holdTicks = 0 := rfl
@[simp] theorem resetRegisters_measurementBuffer : s.resetRegisters.measurementBuffer = freeBuffer s.freeDraws s.params.n := rfl
@[simp] theorem resetRegisters_measurementIndex : s.resetRegisters.measurementIndex = 0 := rfl
@[simp] theorem resetRegisters_measurementComplete : s.resetRegisters.measurementComplete = false := rfl
@[simp] theorem resetRegisters_passFlag : s.resetRegisters.passFlag = false := rfl
@[simp] theorem resetRegisters_tickEnable : s.resetRegisters.tickEnable = true := rfl
@[simp] theorem resetRegisters_lastRpm : s.resetRegisters.lastRpm = 0 := rfl
@[simp] theorem resetRegisters_stopFlag : s.resetRegisters.stopFlag = false := rfl
@[simp] theorem resetRegisters_objectFlag : s.resetRegisters.objectFlag = false := rfl
@[simp] theorem resetRegisters_actEnable : s.resetRegisters.actEnable = false := rfl
@[simp] theorem resetRegisters_actPower : s.resetRegisters.actPower = 0 := rfl
@[simp] theorem resetRegisters_disp : s.resetRegisters.disp = .blank := rfl
@[simp] theorem resetRegisters_pending : s.resetRegisters.pending = s.pending := rfl
@[simp] theorem resetRegisters_potAnswers : s.resetRegisters.potAnswers = s.potAnswers := rfl
@[simp] theorem resetRegisters_rpmAnswers : s.resetRegisters.rpmAnswers = s.rpmAnswers := rfl
@[simp] theorem resetRegisters_distanceAnswers : s.resetRegisters.distanceAnswers = s.distanceAnswers := rfl
@[simp] theorem resetRegisters_freeDraws : s.resetRegisters.freeDraws = s.freeDraws + s.params.n := rfl
@[simp] theorem resetRegisters_report : s.resetRegisters.report = s.report := rfl

/-! The six PID registers by name. -/

@[simp] theorem pidReg_kp : s.pidReg .kp = s.kp := rfl
@[simp] theorem pidReg_ki : s.pidReg .ki = s.ki := rfl
@[simp] theorem pidReg_kd : s.pidReg .kd = s.kd := rfl
@[simp] theorem pidReg_setpoint : s.pidReg .setpoint = s.setpoint := rfl
@[simp] theorem pidReg_integralAccumulator :
    s.pidReg .integralAccumulator = s.integralAccumulator := rfl
@[simp] theorem pidReg_previousError : s.pidReg .previousError = s.previousError := rfl

/-- All six at once. -/
theorem initialised_iff : s.pidReg .kp ≠ .unwritten ∧ s.pidReg .ki ≠ .unwritten ∧
    s.pidReg .kd ≠ .unwritten ∧ s.pidReg .setpoint ≠ .unwritten ∧
    s.pidReg .integralAccumulator ≠ .unwritten ∧ s.pidReg .previousError ≠ .unwritten ↔
    ∀ name, s.pidReg name ≠ .unwritten :=
  ⟨fun ⟨a, b, c, d, e, f⟩ name => by cases name <;> assumption,
    fun h => ⟨h _, h _, h _, h _, h _, h _⟩⟩

end Sys2Proof.Machine.State
end

