-- ==== Sys2Proof/Laws/Scheduler.lean ====
section
/-! SUPPORT. Everything each phase and branch of TICK can do (R131 to R143). -/

namespace Sys2Proof.Machine

theorem completeRound_eq_ok {s t : State} : s.completeRound = .ok t ↔
    ∃ mean, s.params.num.mean s.params.n s.measurementBuffer = some mean ∧
      t = { s with
        measurementComplete := true, passFlag := passCheck s.params mean, measurementIndex := 0,
        holdTicks := 0 } := by
  simp only [State.completeRound, Act.bind_eq_ok, orOverflow_eq_ok]
  exact ⟨fun ⟨m, hm, h⟩ => (by cases h; exact ⟨m, hm, rfl⟩), fun ⟨m, hm, h⟩ => ⟨m, hm, by rw [h]⟩⟩

/-- The firing of R134: the sample, and then either one more of the round or its completion. -/
theorem takeSample_eq_ok {s t : State} : s.takeSample = .ok t ↔
    ∃ a rest draws, s.DistanceNext a rest draws ∧ s.measurementIndex < s.measurementBuffer.length ∧
      let u : State := { s with
        measurementTicks := 0, distanceAnswers := rest, freeDraws := draws,
        report := ⟨s.report.response, s.report.conditions ++ timeoutConditions a⟩,
        measurementBuffer := s.measurementBuffer.set s.measurementIndex (distanceValue s.params a),
        measurementIndex := s.measurementIndex + 1 }
      (s.measurementIndex + 1 ≠ s.params.n ∧ t = u) ∨
      (s.measurementIndex + 1 = s.params.n ∧ u.completeRound = .ok t) := by
  simp only [State.takeSample, Act.bind_eq_ok]
  constructor
  · rintro ⟨⟨v, u⟩, hd, buffer, hb, h⟩
    obtain ⟨a, rest, draws, hn, rfl, rfl⟩ := distanceRead_eq_ok.mp hd
    obtain ⟨hi, rfl⟩ := memWrite_eq_ok.mp hb
    refine ⟨a, rest, draws, hn, hi, ?_⟩
    dsimp only at h
    split at h
    · exact .inr ⟨‹_›, h⟩
    · cases h; exact .inl ⟨‹_›, rfl⟩
  · rintro ⟨a, rest, draws, hn, hi, h⟩
    refine ⟨(_, _), distanceRead_eq_ok.mpr ⟨a, rest, draws, hn, rfl, rfl⟩, _,
      memWrite_eq_ok.mpr ⟨hi, rfl⟩, ?_⟩
    rcases h with ⟨hne, rfl⟩ | ⟨heq, h⟩
    · simp [hne]
    · simpa [heq] using h

theorem measurementPhase_eq_ok {s t : State} : s.measurementPhase = .ok t ↔
    (s.measurementTicks + 1 < s.params.measurementRate ∧
      t = { s with measurementTicks := s.measurementTicks + 1 }) ∨
    (s.params.measurementRate ≤ s.measurementTicks + 1 ∧ s.takeSample = .ok t) := by
  unfold State.measurementPhase
  dsimp only
  split
  · have e : ({ s with measurementTicks := s.measurementTicks + 1 } : State).takeSample =
        s.takeSample := rfl
    rw [e]
    constructor
    · exact fun h => .inr ⟨‹_›, h⟩
    · rintro (⟨h, -⟩ | ⟨-, h⟩)
      · omega
      · exact h
  · constructor
    · intro h; cases h; exact .inl ⟨by omega, rfl⟩
    · rintro (⟨-, rfl⟩ | ⟨h, -⟩)
      · rfl
      · omega

/-- R137: the counter, and the frame on a firing. -/
theorem objectDisplayPhase_eq_ok {s t : State} : s.objectDisplayPhase = .ok t ↔
    (s.objDisplayTicks + 1 < s.params.displayRate / 2 ∧
      t = { s with objDisplayTicks := s.objDisplayTicks + 1 }) ∨
    (s.params.displayRate / 2 ≤ s.objDisplayTicks + 1 ∧
      ∃ frame, s.objectFrame = .ok frame ∧ t = { s with objDisplayTicks := 0, disp := frame }) := by
  unfold State.objectDisplayPhase
  dsimp only
  split
  · simp only [Act.bind_eq_ok]
    constructor
    · rintro ⟨frame, hf, h⟩; cases h; exact .inr ⟨‹_›, frame, hf, rfl⟩
    · rintro (⟨h, -⟩ | ⟨-, frame, hf, rfl⟩)
      · omega
      · exact ⟨frame, hf, rfl⟩
  · constructor
    · intro h; cases h; exact .inl ⟨by omega, rfl⟩
    · rintro (⟨-, rfl⟩ | ⟨h, -⟩)
      · rfl
      · omega

theorem objectFrame_progress {s : State} (h : s.measurementComplete = false) :
    s.objectFrame = .ok (.progress (s.measurementIndex * (100 / s.params.n))) := by
  simp [State.objectFrame, h, progressOf]

theorem objectFrame_result {s : State} (h : s.measurementComplete = true)
    (he : s.params.num = .exact) :
    s.objectFrame = .ok (.result (s.measurementBuffer.sum / (s.params.n : NUM))) := by
  simp [State.objectFrame, h, he, Act.ok_bind]

theorem objectFrame_of_mean {s : State} {mean : NUM} (h : s.measurementComplete = true)
    (hm : s.params.num.mean s.params.n s.measurementBuffer = some mean) :
    s.objectFrame = .ok (.result mean) := by
  simp [State.objectFrame, h, hm, Act.ok_bind]

/-- R137 in one equation, when the frame is known. -/
theorem objectDisplayPhase_of_frame {s : State} {frame : Frame} (h : s.objectFrame = .ok frame) :
    s.objectDisplayPhase = .ok { s with
      objDisplayTicks :=
        if s.params.displayRate / 2 ≤ s.objDisplayTicks + 1 then 0 else s.objDisplayTicks + 1
      disp := if s.params.displayRate / 2 ≤ s.objDisplayTicks + 1 then frame else s.disp } := by
  rw [objectDisplayPhase_eq_ok]
  by_cases hd : s.params.displayRate / 2 ≤ s.objDisplayTicks + 1
  · exact .inr ⟨hd, frame, h, by simp [hd]⟩
  · exact .inl ⟨by omega, by simp [hd]⟩

theorem holdExpiry_expired {s : State} (hc : s.measurementComplete = true)
    (hh : s.params.holdTicks ≤ s.holdTicks) :
    s.holdExpiry = { s with objectFlag := false, measurementComplete := false, holdTicks := 0 } := by
  simp [State.holdExpiry, hc, hh, State.setObject]

theorem holdExpiry_kept {s : State}
    (h : s.measurementComplete = false ∨ s.holdTicks < s.params.holdTicks) : s.holdExpiry = s := by
  unfold State.holdExpiry
  split
  · rename_i hc
    rcases h with h | h
    · rw [h] at hc; exact absurd hc.1 (by simp)
    · have := hc.2; omega
  · rfl

/-- R138: expiry happens or nothing does. -/
theorem holdExpiry_cases (s : State) : s.holdExpiry = s ∨
    (s.measurementComplete = true ∧ s.params.holdTicks ≤ s.holdTicks ∧
      s.holdExpiry = { s with objectFlag := false, measurementComplete := false, holdTicks := 0 }) := by
  by_cases hc : s.measurementComplete = true
  · by_cases hh : s.params.holdTicks ≤ s.holdTicks
    · exact .inr ⟨hc, hh, holdExpiry_expired hc hh⟩
    · exact .inl (holdExpiry_kept (.inr (by omega)))
  · exact .inl (holdExpiry_kept (.inl (by simpa using hc)))

/-- R133: hold while a round is complete, else measure. -/
theorem measureOrHold_eq_ok {s t : State} : s.measureOrHold = .ok t ↔
    (s.measurementComplete = true ∧ t = { s with holdTicks := s.holdTicks + 1 }) ∨
    (s.measurementComplete = false ∧ s.measurementPhase = .ok t) := by
  unfold State.measureOrHold
  by_cases hc : s.measurementComplete = true
  · rw [if_pos hc]
    constructor
    · intro h; cases h; exact .inl ⟨hc, rfl⟩
    · rintro (⟨-, rfl⟩ | ⟨h, -⟩)
      · rfl
      · rw [hc] at h; cases h
  · rw [if_neg hc]
    constructor
    · exact fun h => .inr ⟨by simpa using hc, h⟩
    · rintro (⟨h, -⟩ | ⟨-, h⟩)
      · exact absurd h hc
      · exact h

/-- R133: the order of the phases. -/
theorem objectBranch_eq_ok {s t : State} : s.objectBranch = .ok t ↔
    ∃ u v, ({ s with actEnable := false } : State).measureOrHold = .ok u ∧
      u.objectDisplayPhase = .ok v ∧ t = v.holdExpiry := by
  simp only [State.objectBranch, Act.bind_eq_ok]
  exact ⟨fun ⟨u, hu, v, hv, h⟩ => (by cases h; exact ⟨u, v, hu, hv, rfl⟩),
    fun ⟨u, v, hu, hv, h⟩ => ⟨u, hu, v, hv, by rw [h]⟩⟩

theorem targetRpm_exact {params : Params} (h : params.num = .exact) (p : NUM) :
    targetRpm params p = .ok (p * params.maxRpm / 100) := by
  simp [targetRpm, h, Act.ok_bind]

theorem targetRpm_eq_ok {params : Params} {p target : NUM} : targetRpm params p = .ok target ↔
    ∃ product, params.num.mul p params.maxRpm = some product ∧
      params.num.div product 100 = some target := by
  simp only [targetRpm, Act.bind_eq_ok, orOverflow_eq_ok]

/-- The firing of R140. -/
theorem controlLoop_eq_ok {s t : State} : s.controlLoop = .ok t ↔
    ∃ p pots draws target r rpms draws' out u, s.PotNext p pots draws ∧
      targetRpm s.params p = .ok target ∧ s.RpmNext draws r rpms draws' ∧
      ({ s with
        pidTicks := 0, potAnswers := pots, freeDraws := draws', setpoint := .written target,
        rpmAnswers := rpms, lastRpm := r } : State).pidUpdate r = .ok (out, u) ∧
      t = { u with actPower := out } := by
  simp only [State.controlLoop, Act.bind_eq_ok]
  constructor
  · rintro ⟨⟨p, s1⟩, hp, target, ht, ⟨r, s2⟩, hr, ⟨out, u⟩, hu, h⟩
    cases h
    obtain ⟨pots, draws, hpn, rfl⟩ := potRead_eq_ok.mp hp
    obtain ⟨rpms, draws', hrn, rfl⟩ := rpmRead_eq_ok.mp hr
    exact ⟨p, pots, draws, target, r, rpms, draws', out, u, hpn, ht, hrn, hu, rfl⟩
  · rintro ⟨p, pots, draws, target, r, rpms, draws', out, u, hpn, ht, hrn, hu, rfl⟩
    exact ⟨(_, _), potRead_eq_ok.mpr ⟨pots, draws, hpn, rfl⟩, target, ht, (_, _),
      rpmRead_eq_ok.mpr ⟨rpms, draws', hrn, rfl⟩, (_, _), hu, rfl⟩

/-- The firing of R140 once the setpoint input and the rotation sensor have answered. -/
theorem controlLoop_of_answers {s : State} {p target r : NUM} {pots rpms : List NUM}
    {draws draws' : Nat} (hp : s.PotNext p pots draws) (ht : targetRpm s.params p = .ok target)
    (hr : s.RpmNext draws r rpms draws') :
    s.controlLoop = ({ s with
      pidTicks := 0, potAnswers := pots, freeDraws := draws', setpoint := .written target,
      rpmAnswers := rpms, lastRpm := r } : State).pidUpdate r >>= fun x =>
        .ok { x.2 with actPower := x.1 } := by
  have e1 := (potRead_eq_ok (s := { s with pidTicks := 0 })).mpr ⟨pots, draws, hp, rfl⟩
  have e2 := (rpmRead_eq_ok (s := { s with
    pidTicks := 0, potAnswers := pots, freeDraws := draws, setpoint := .written target })).mpr
    ⟨rpms, draws', hr, rfl⟩
  unfold State.controlLoop
  rw [e1, Act.ok_bind]
  dsimp only
  rw [ht, Act.ok_bind, e2, Act.ok_bind]

/-- The firing of R140 over exact numbers, INIT done. -/
theorem controlLoop_exact {s : State} {kp ki kd acc pe p r : NUM} {pots rpms : List NUM}
    {draws draws' : Nat} (h : s.params.num = .exact)
    (h1 : s.kp = .written kp) (h2 : s.ki = .written ki) (h3 : s.kd = .written kd)
    (h5 : s.integralAccumulator = .written acc) (h6 : s.previousError = .written pe)
    (hp : s.PotNext p pots draws) (hr : s.RpmNext draws r rpms draws') :
    let target := p * s.params.maxRpm / 100
    let error := target - r
    let accumulator := max (-s.params.maxIntegral) (min s.params.maxIntegral (acc + error))
    let rawOutput := kp * error + ki * accumulator + kd * (error - pe)
    s.controlLoop = .ok { s with
      pidTicks := 0, potAnswers := pots, freeDraws := draws', setpoint := .written target,
      rpmAnswers := rpms, lastRpm := r, integralAccumulator := .written accumulator,
      previousError := .written error,
      actPower := ⌊max s.params.minOutput (min s.params.maxOutput rawOutput)⌋ } := by
  intro target error accumulator rawOutput
  have hu := pidUpdate_exact (m := r)
    (s := { s with
      pidTicks := 0, potAnswers := pots, freeDraws := draws', setpoint := .written target,
      rpmAnswers := rpms, lastRpm := r }) h h1 h2 h3 rfl h5 h6
  exact controlLoop_eq_ok.mpr
    ⟨p, pots, draws, target, r, rpms, draws', _, _, hp, targetRpm_exact h p, hr, hu, rfl⟩

theorem pidPhase_eq_ok {s t : State} : s.pidPhase = .ok t ↔
    (s.pidTicks + 1 < s.params.pidRate ∧ t = { s with pidTicks := s.pidTicks + 1 }) ∨
    (s.params.pidRate ≤ s.pidTicks + 1 ∧ s.controlLoop = .ok t) := by
  unfold State.pidPhase
  dsimp only
  split
  · have e : ({ s with pidTicks := s.pidTicks + 1 } : State).controlLoop = s.controlLoop := rfl
    rw [e]
    constructor
    · exact fun h => .inr ⟨‹_›, h⟩
    · rintro (⟨h, -⟩ | ⟨-, h⟩)
      · omega
      · exact h
  · constructor
    · intro h; cases h; exact .inl ⟨by omega, rfl⟩
    · rintro (⟨-, rfl⟩ | ⟨h, -⟩)
      · rfl
      · omega

theorem runDisplayPhase_eq_ok {s t : State} : s.runDisplayPhase = .ok t ↔
    (s.displayTicks + 1 < s.params.displayRate ∧ t = { s with displayTicks := s.displayTicks + 1 }) ∨
    (s.params.displayRate ≤ s.displayTicks + 1 ∧
      ∃ sp, s.setpoint = .written sp ∧ t = { s with displayTicks := 0, disp := .run s.lastRpm sp }) := by
  unfold State.runDisplayPhase
  dsimp only
  split
  · simp only [Act.bind_eq_ok, readPid_eq_ok]
    constructor
    · rintro ⟨sp, hs, h⟩; cases h; exact .inr ⟨‹_›, sp, hs, rfl⟩
    · rintro (⟨h, -⟩ | ⟨-, sp, hs, rfl⟩)
      · omega
      · exact ⟨sp, hs, rfl⟩
  · constructor
    · intro h; cases h; exact .inl ⟨by omega, rfl⟩
    · rintro (⟨-, rfl⟩ | ⟨h, -⟩)
      · rfl
      · omega

theorem runningBranch_eq_ok {s t : State} : s.runningBranch = .ok t ↔
    ∃ u, ({ s.leaveObject with actEnable := true } : State).pidPhase = .ok u ∧
      u.runDisplayPhase = .ok t := by
  simp only [State.runningBranch, Act.bind_eq_ok]

/-! R131: the four ways a TICK goes. -/

theorem execTick_disabled {s : State} (h : s.tickEnable = false) : execTick s = .next s.respondOk := by
  simp [execTick, h]

theorem execTick_delivered {s : State} (h : s.tickEnable = true) :
    execTick s = finish s.respondOk.deliverTick := by
  simp [execTick, h]

theorem execTick_stopped {s : State} (h : s.tickEnable = true) (hs : s.stopFlag = true) :
    execTick s = .next ({ s.respondOk with mode := .stopped } : State).stoppedBranch := by
  simp [execTick_delivered h, State.deliverTick, branchOf, State.branch, hs]

theorem execTick_object {s : State} (h : s.tickEnable = true) (hs : s.stopFlag = false)
    (ho : s.objectFlag = true) :
    execTick s = finish ({ s.respondOk with mode := .objectPresent } : State).objectBranch := by
  simp [execTick_delivered h, State.deliverTick, branchOf, State.branch, hs, ho]

theorem execTick_running {s : State} (h : s.tickEnable = true) (hs : s.stopFlag = false)
    (ho : s.objectFlag = false) :
    execTick s = finish ({ s.respondOk with mode := .running } : State).runningBranch := by
  simp [execTick_delivered h, State.deliverTick, branchOf, State.branch, hs, ho]

/-- An OBJECT_PRESENT tick from its phases (R133). -/
theorem execTick_object_of_phases {s u v : State} (h : s.tickEnable = true) (hs : s.stopFlag = false)
    (ho : s.objectFlag = true)
    (h1 : ({ s.respondOk with mode := .objectPresent, actEnable := false } : State).measureOrHold = .ok u)
    (h2 : u.objectDisplayPhase = .ok v) : execTick s = .next v.holdExpiry := by
  rw [execTick_object h hs ho, finish_eq_next, objectBranch_eq_ok]
  exact ⟨u, v, h1, h2, rfl⟩

/-- The state in which a RUNNING tick's phases begin (R139). -/
def runningStart (s : State) : State :=
  { ({ s.respondOk with mode := .running } : State).leaveObject with actEnable := true }

/-- A RUNNING tick from its phases (R139). -/
theorem execTick_running_of_phases {s u t : State} (h : s.tickEnable = true)
    (hs : s.stopFlag = false) (ho : s.objectFlag = false) (h1 : (runningStart s).pidPhase = .ok u)
    (h2 : u.runDisplayPhase = .ok t) : execTick s = .next t := by
  rw [execTick_running h hs ho, finish_eq_next, runningBranch_eq_ok]
  exact ⟨u, h1, h2⟩

/-- Everything a TICK that ends in a next state can have done. -/
theorem execTick_eq_next {s t : State} (h : execTick s = .next t) :
    (s.tickEnable = false ∧ t = s.respondOk) ∨
    (s.tickEnable = true ∧ s.stopFlag = true ∧
      t = ({ s.respondOk with mode := .stopped } : State).stoppedBranch) ∨
    (s.tickEnable = true ∧ s.stopFlag = false ∧ s.objectFlag = true ∧
      ({ s.respondOk with mode := .objectPresent } : State).objectBranch = .ok t) ∨
    (s.tickEnable = true ∧ s.stopFlag = false ∧ s.objectFlag = false ∧
      ({ s.respondOk with mode := .running } : State).runningBranch = .ok t) := by
  cases he : s.tickEnable
  · rw [execTick_disabled he] at h; cases h; exact .inl ⟨rfl, rfl⟩
  · cases hs : s.stopFlag
    · cases ho : s.objectFlag
      · rw [execTick_running he hs ho, finish_eq_next] at h
        exact .inr (.inr (.inr ⟨rfl, rfl, rfl, h⟩))
      · rw [execTick_object he hs ho, finish_eq_next] at h
        exact .inr (.inr (.inl ⟨rfl, rfl, rfl, h⟩))
    · rw [execTick_stopped he hs] at h; cases h; exact .inr (.inl ⟨rfl, rfl, rfl⟩)

/-- What the OBJECT_PRESENT display phase leaves: the counter of R142, and some frame. -/
theorem objectDisplayPhase_ok_fields {s t : State} (h : s.objectDisplayPhase = .ok t) :
    ∃ frame, t = { s with
      objDisplayTicks :=
        if s.params.displayRate / 2 ≤ s.objDisplayTicks + 1 then 0 else s.objDisplayTicks + 1
      disp := frame } := by
  rcases objectDisplayPhase_eq_ok.mp h with ⟨hd, rfl⟩ | ⟨hd, frame, -, rfl⟩
  · exact ⟨s.disp, by rw [if_neg (by omega)]⟩
  · exact ⟨frame, by rw [if_pos hd]⟩

/-- What the RUNNING display phase leaves. -/
theorem runDisplayPhase_ok_fields {s t : State} (h : s.runDisplayPhase = .ok t) :
    ∃ frame, t = { s with
      displayTicks := if s.params.displayRate ≤ s.displayTicks + 1 then 0 else s.displayTicks + 1
      disp := frame } := by
  rcases runDisplayPhase_eq_ok.mp h with ⟨hd, rfl⟩ | ⟨hd, sp, -, rfl⟩
  · exact ⟨s.disp, by rw [if_neg (by omega)]⟩
  · exact ⟨_, by rw [if_pos hd]⟩

/-- What the PID phase's firing leaves: the bounds of R107 and R108 among it. -/
theorem controlLoop_ok_fields {s t : State} (h : s.controlLoop = .ok t) :
    ∃ p pots draws₀ r rpms draws target acc err out,
      s.PotNext p pots draws₀ ∧ s.RpmNext draws₀ r rpms draws ∧
      (-s.params.maxIntegral ≤ acc ∧ acc ≤ s.params.maxIntegral) ∧ (0 ≤ out ∧ out ≤ 100) ∧
      s.params.OutputBounded out ∧
      (∃ kp ki kd acc' err', s.kp = .written kp ∧ s.ki = .written ki ∧ s.kd = .written kd ∧
        s.integralAccumulator = .written acc' ∧ s.previousError = .written err') ∧
      t = { s with
        pidTicks := 0, potAnswers := pots, rpmAnswers := rpms, freeDraws := draws,
        setpoint := .written target, lastRpm := r, integralAccumulator := .written acc,
        previousError := .written err, actPower := out } := by
  obtain ⟨p, pots, draws, target, r, rpms, draws', out, u, hpot, -, hrpm, hu, rfl⟩ :=
    controlLoop_eq_ok.mp h
  have hp := pidUpdate_percentage hu
  have ho := pidUpdate_outputBounded hu
  obtain ⟨x, res, hx, hr, rfl, rfl⟩ := pidUpdate_eq_ok.mp hu
  obtain ⟨h1, h2, h3, -, h5, h6⟩ := pidInputs_eq_ok.mp hx
  exact ⟨p, pots, draws, r, rpms, draws', target, _, _, _, hpot, hrpm, (pidCompute_bounds hr).1, hp, ho,
    ⟨_, _, _, _, _, h1, h2, h3, h5, h6⟩, rfl⟩

/-- The next states of a TICK, field by field (R131 to R143): every proof about a TICK begins with
this case split. -/
theorem execTick_next_cases {s t : State} (h : execTick s = .next t) :
    (s.tickEnable = false ∧ t = s.respondOk) ∨
    (s.tickEnable = true ∧ s.stopFlag = true ∧ t = { s with
      mode := .stopped, actEnable := false, disp := .stopped, measurementTicks := 0,
      objDisplayTicks := 0, holdTicks := 0, measurementIndex := 0, measurementComplete := false,
      tickEnable := !s.params.stopTerminal, report := ⟨.ok, [.stopCondition]⟩ }) ∨
    (s.tickEnable = true ∧ s.stopFlag = false ∧ s.objectFlag = true ∧
      ∃ od frame, od = (if s.params.displayRate / 2 ≤ s.objDisplayTicks + 1 then 0
          else s.objDisplayTicks + 1) ∧
      ((s.measurementComplete = true ∧ s.holdTicks + 1 < s.params.holdTicks ∧ t = { s with
          mode := .objectPresent, actEnable := false, objDisplayTicks := od, disp := frame,
          holdTicks := s.holdTicks + 1, report := ⟨.ok, []⟩ }) ∨
       (s.measurementComplete = true ∧ s.params.holdTicks ≤ s.holdTicks + 1 ∧ t = { s with
          mode := .objectPresent, actEnable := false, objDisplayTicks := od, disp := frame,
          holdTicks := 0, measurementComplete := false, objectFlag := false, report := ⟨.ok, []⟩ }) ∨
       (s.measurementComplete = false ∧ s.measurementTicks + 1 < s.params.measurementRate ∧
        t = { s with
          mode := .objectPresent, actEnable := false, objDisplayTicks := od, disp := frame,
          measurementTicks := s.measurementTicks + 1, report := ⟨.ok, []⟩ }) ∨
       (s.measurementComplete = false ∧ s.params.measurementRate ≤ s.measurementTicks + 1 ∧
        ∃ a rest draws, s.DistanceNext a rest draws ∧
          s.measurementIndex < s.measurementBuffer.length ∧
        ((s.measurementIndex + 1 ≠ s.params.n ∧ t = { s with
            mode := .objectPresent, actEnable := false, objDisplayTicks := od, disp := frame,
            measurementTicks := 0, distanceAnswers := rest, freeDraws := draws,
            measurementBuffer := s.measurementBuffer.set s.measurementIndex (distanceValue s.params a),
            measurementIndex := s.measurementIndex + 1, report := ⟨.ok, timeoutConditions a⟩ }) ∨
         (s.measurementIndex + 1 = s.params.n ∧ ∃ mean,
          s.params.num.mean s.params.n
            (s.measurementBuffer.set s.measurementIndex (distanceValue s.params a)) = some mean ∧
          t = { s with
            mode := .objectPresent, actEnable := false, objDisplayTicks := od, disp := frame,
            measurementTicks := 0, distanceAnswers := rest, freeDraws := draws,
            measurementBuffer := s.measurementBuffer.set s.measurementIndex (distanceValue s.params a),
            measurementIndex := 0, measurementComplete := true,
            passFlag := passCheck s.params mean, holdTicks := 0,
            report := ⟨.ok, timeoutConditions a⟩ }))))) ∨
    (s.tickEnable = true ∧ s.stopFlag = false ∧ s.objectFlag = false ∧
      ∃ dt frame, dt = (if s.params.displayRate ≤ s.displayTicks + 1 then 0
          else s.displayTicks + 1) ∧
      ((s.pidTicks + 1 < s.params.pidRate ∧ t = { s with
          mode := .running, actEnable := true, measurementTicks := 0, objDisplayTicks := 0,
          holdTicks := 0, measurementIndex := 0, measurementComplete := false,
          pidTicks := s.pidTicks + 1, displayTicks := dt, disp := frame, report := ⟨.ok, []⟩ }) ∨
       (s.params.pidRate ≤ s.pidTicks + 1 ∧ ∃ p pots draws₀ r rpms draws target acc err out,
        s.PotNext p pots draws₀ ∧ s.RpmNext draws₀ r rpms draws ∧
        (-s.params.maxIntegral ≤ acc ∧ acc ≤ s.params.maxIntegral) ∧ (0 ≤ out ∧ out ≤ 100) ∧
        s.params.OutputBounded out ∧
        (∃ kp ki kd acc' err', s.kp = .written kp ∧ s.ki = .written ki ∧ s.kd = .written kd ∧
          s.integralAccumulator = .written acc' ∧ s.previousError = .written err') ∧
        t = { s with
          mode := .running, actEnable := true, measurementTicks := 0, objDisplayTicks := 0,
          holdTicks := 0, measurementIndex := 0, measurementComplete := false,
          pidTicks := 0, displayTicks := dt, disp := frame,
          potAnswers := pots, rpmAnswers := rpms, freeDraws := draws, setpoint := .written target,
          lastRpm := r, integralAccumulator := .written acc, previousError := .written err,
          actPower := out, report := ⟨.ok, []⟩ }))) := by
  rcases execTick_eq_next h with ⟨he, rfl⟩ | ⟨he, hs, rfl⟩ | ⟨he, hs, ho, hb⟩ | ⟨he, hs, ho, hb⟩
  · exact .inl ⟨he, rfl⟩
  · refine .inr (.inl ⟨he, hs, ?_⟩)
    cases hst : s.params.stopTerminal <;>
      simp [State.stoppedBranch, hst, State.leaveObject, State.met, State.respondOk, he]
  · refine .inr (.inr (.inl ⟨he, hs, ho, ?_⟩))
    obtain ⟨u, v, hu, hv, rfl⟩ := objectBranch_eq_ok.mp hb
    obtain ⟨frame, rfl⟩ := objectDisplayPhase_ok_fields hv
    refine ⟨_, frame, rfl, ?_⟩
    rcases measureOrHold_eq_ok.mp hu with ⟨hc, rfl⟩ | ⟨hc, hu⟩
    · by_cases hh : s.params.holdTicks ≤ s.holdTicks + 1
      · refine .inr (.inl ⟨hc, hh, ?_⟩)
        rw [holdExpiry_expired (by exact hc) (by exact hh)]; rfl
      · refine .inl ⟨hc, by omega, ?_⟩
        rw [holdExpiry_kept (.inr (by exact not_le.mp hh))]; rfl
    · rcases measurementPhase_eq_ok.mp hu with ⟨hm, rfl⟩ | ⟨hm, hu⟩
      · refine .inr (.inr (.inl ⟨hc, hm, ?_⟩))
        rw [holdExpiry_kept (.inl (by exact hc))]; rfl
      · obtain ⟨a, rest, draws, hd, hi, hu⟩ := takeSample_eq_ok.mp hu
        refine .inr (.inr (.inr ⟨hc, hm, a, rest, draws, hd, hi, ?_⟩))
        rcases hu with ⟨hn, rfl⟩ | ⟨hn, hu⟩
        · refine .inl ⟨hn, ?_⟩
          rw [holdExpiry_kept (.inl (by exact hc))]; rfl
        · obtain ⟨mean, hmean, rfl⟩ := completeRound_eq_ok.mp hu
          refine .inr ⟨hn, mean, hmean, ?_⟩
          have := s.params.legal
          rw [holdExpiry_kept (.inr (by simp only [State.respondOk_params]; omega))]; rfl
  · refine .inr (.inr (.inr ⟨he, hs, ho, ?_⟩))
    obtain ⟨u, hu, hv⟩ := runningBranch_eq_ok.mp hb
    obtain ⟨frame, rfl⟩ := runDisplayPhase_ok_fields hv
    refine ⟨_, frame, rfl, ?_⟩
    rcases pidPhase_eq_ok.mp hu with ⟨hp, rfl⟩ | ⟨hp, hu⟩
    · exact .inl ⟨hp, rfl⟩
    · obtain ⟨p, pots, draws₀, r, rpms, draws, target, acc, err, out, hpot, hrpm, h1, h2, h4, h3, rfl⟩ :=
        controlLoop_ok_fields hu
      exact .inr ⟨hp, p, pots, draws₀, r, rpms, draws, target, acc, err, out, hpot, hrpm, h1, h2, h4, h3, rfl⟩

end Sys2Proof.Machine
end

