-- ==== Sys2Proof/Tests/Slice0.lean ====
section
/-! SUPPORT. The model's own tests: the checks of WellFormed, a written-out word for every operation,
at most two one-step vectors of 95_test_vectors.md per operation, and for every statement with
hypotheses a state that meets them. -/

namespace Sys2Proof.Tests

open Sys2Proof Sys2Proof.Machine

/-! ## Helpers -/

/-- The next state, if there is one. -/
def after (o : Host.Outcome State Fault Refusal) : Option State :=
  match o with
  | .next s => some s
  | .fault _ => none
  | .refused _ => none

/-- The fault, if there is one. -/
def faultOf (o : Host.Outcome State Fault Refusal) : Option Fault :=
  match o with
  | .next _ => none
  | .fault f => some f
  | .refused _ => none

/-- The refusal, if there is one. -/
def refusalOf (o : Host.Outcome State Fault Refusal) : Option Refusal :=
  match o with
  | .next _ => none
  | .fault _ => none
  | .refused r => some r

/-- `TP` with the controller built alone (R90). -/
def alone : Params := ⟨{ Config.testProfile with standalonePid := true }, by decide +kernel⟩

/-- The same with `MAX_INTEGRAL = 8`, as in V-P6. -/
def alone8 : Params :=
  ⟨{ Config.testProfile with standalonePid := true, maxIntegral := 8 }, by decide +kernel⟩

/-- `TP` with `STOP_TERMINAL` (program P5). -/
def terminal : Params := ⟨{ Config.testProfile with stopTerminal := true }, by decide +kernel⟩

/-- `TP` over a finite `NUM`, the controller built alone. -/
def finite : Params :=
  ⟨{ Config.testProfile with standalonePid := true, num := .finite (-6500) 6500 }, by decide +kernel⟩

/-- The same with a round of four samples. -/
def finite4 : Params := ⟨{ finite.toProfile with n := 4 }, by decide +kernel⟩

/-- The smallest finite `NUM`: a value that it rounds is known, as it has but one. -/
def pointNum : Params :=
  ⟨{ Config.testProfile with
      standalonePid := true, num := .finite 0 0, maxIntegral := 0, minOutput := 0, maxOutput := 0,
      threshold := 0, maxRpm := 0, errorSentinel := 0, distMin := 0, distMax := 0 }, by decide +kernel⟩

theorem pointNum_arith (op : ArithOp) {a b : NUM} (h : op.exact a b = 0) :
    NumSystem.arith (.finite 0 0) op a b = some 0 := by
  have e : ∀ x : NUM, clamp x 0 0 = 0 := fun x => le_antisymm (clamp_le le_rfl) (le_clamp le_rfl)
  simp [NumSystem.arith, h, e]

/-- A state that RESET can leave, its unspecified buffer all zeros. -/
def fresh : State := { State.reset with measurementBuffer := [0, 0, 0], freeDraws := 0 }

/-- The same after `INIT 1, 1/2, 1/4, 10`. -/
def ready : State := { fresh with
  kp := .written 1, ki := .written (1 / 2), kd := .written (1 / 4), setpoint := .written 10,
  integralAccumulator := .written 0, previousError := .written 0 }

/-- All six PID registers 0, over `pointNum`. -/
def allZero : State := { fresh with
  params := pointNum, kp := .written 0, ki := .written 0, kd := .written 0, setpoint := .written 0,
  integralAccumulator := .written 0, previousError := .written 0 }

/-- `ready` in the OBJECT_PRESENT branch, one tick before a sample is due. -/
def measuring : State := { ready with objectFlag := true, measurementTicks := 1, mode := .objectPresent }

/-- `ready` with a completed round on hold (program P2, after tick 6). -/
def holding : State := { ready with
  objectFlag := true, measurementComplete := true, measurementBuffer := [9, 10, 11], passFlag := true,
  mode := .objectPresent }

/-! ## WellFormed: each operand outside a finite `NUM` is refused -/

theorem test_wf_init_kp : (Instr.init 11 0 0 0).wf (.finite (-10) 10) = false := by decide +kernel
theorem test_wf_init_ki : (Instr.init 0 11 0 0).wf (.finite (-10) 10) = false := by decide +kernel
theorem test_wf_init_kd : (Instr.init 0 0 (-11) 0).wf (.finite (-10) 10) = false := by decide +kernel
theorem test_wf_init_sp : (Instr.init 0 0 0 11).wf (.finite (-10) 10) = false := by decide +kernel
theorem test_wf_setKp : (Instr.setKp 11).wf (.finite (-10) 10) = false := by decide +kernel
theorem test_wf_setKi : (Instr.setKi 11).wf (.finite (-10) 10) = false := by decide +kernel
theorem test_wf_setKd : (Instr.setKd (-11)).wf (.finite (-10) 10) = false := by decide +kernel
theorem test_wf_setSp : (Instr.setSp 11).wf (.finite (-10) 10) = false := by decide +kernel
theorem test_wf_update : (Instr.update (-11)).wf (.finite (-10) 10) = false := by decide +kernel
theorem test_wf_bounds :
    (Instr.init 10 (-10) 0 (1 / 2)).wf (.finite (-10) 10) = true ∧
    (Instr.setSp 1000000).wf .exact = true := by decide +kernel

/-- Rule R10: an illegal profile is not built. -/
theorem test_illegal_profile_not_built :
    { Config.testProfile with displayRate := 1 }.build = none ∧
    { Config.testProfile with minOutput := 60, maxOutput := 50 }.build = none ∧
    { Config.testProfile with maxOutput := 101 }.build = none ∧
    { Config.testProfile with num := .finite (-10) 10 }.build = none ∧
    Config.testProfile.build ≠ none := by decide +kernel

/-! ## Decode: a word of each operation, its `op` written out from the table of R82 -/

theorem test_decode_init : decode .exact ⟨0b0001#4, [.num 1, .num 2, .num 3, .num 4]⟩ =
    .ok (.init 1 2 3 4) := rfl
theorem test_decode_setKp : decode .exact ⟨0b0010#4, [.num 2]⟩ = .ok (.setKp 2) := rfl
theorem test_decode_setKi : decode .exact ⟨0b0011#4, [.num 2]⟩ = .ok (.setKi 2) := rfl
theorem test_decode_setKd : decode .exact ⟨0b0100#4, [.num 2]⟩ = .ok (.setKd 2) := rfl
theorem test_decode_setSp : decode .exact ⟨0b0101#4, [.num 2]⟩ = .ok (.setSp 2) := rfl
theorem test_decode_update : decode .exact ⟨0b0110#4, [.num 2]⟩ = .ok (.update 2) := rfl
theorem test_decode_tick : decode .exact ⟨0b1000#4, []⟩ = .ok .tick := rfl
theorem test_decode_stopSet : decode .exact ⟨0b1001#4, []⟩ = .ok .stopSet := rfl
theorem test_decode_stopClr : decode .exact ⟨0b1010#4, []⟩ = .ok .stopClr := rfl
theorem test_decode_objSet : decode .exact ⟨0b1011#4, []⟩ = .ok .objSet := rfl
theorem test_decode_objClr : decode .exact ⟨0b1100#4, []⟩ = .ok .objClr := rfl
theorem test_decode_reset : decode .exact ⟨0b1111#4, []⟩ = .ok .reset := rfl

/-- Rules R85 and R88, vectors V-E1 and V-E2. -/
theorem test_decode_rejects :
    decode .exact ⟨0b0000#4, []⟩ = .error .unknownOperation ∧
    decode .exact ⟨0b0111#4, [.num 1]⟩ = .error .unknownOperation ∧
    decode .exact ⟨0b1101#4, []⟩ = .error .unknownOperation ∧
    decode .exact ⟨0b1110#4, []⟩ = .error .unknownOperation ∧
    decode .exact ⟨0b0001#4, [.num 1, .num 2, .num 3]⟩ = .error .malformed ∧
    decode .exact ⟨0b0010#4, []⟩ = .error .malformed ∧
    decode .exact ⟨0b1000#4, [.num 1]⟩ = .error .malformed ∧
    decode .exact ⟨0b0101#4, [.nonFinite]⟩ = .error .malformed ∧
    decode (.finite (-10) 10) ⟨0b0101#4, [.num 11]⟩ = .error .malformed := by decide +kernel

/-- Rules R86 to R88, vector V-E3. -/
theorem test_decode_lines :
    decodeLine .exact [.text "SET", .text "KP", .value (.num 2)] = .ok (.setKp 2) ∧
    decodeLine .exact [.text "SET", .text "KI", .value (.num (1 / 2))] = .ok (.setKi (1 / 2)) ∧
    decodeLine .exact [.text "SET", .text "KD", .value (.num 0)] = .ok (.setKd 0) ∧
    decodeLine .exact [.text "SET", .text "SP", .value (.num 3000)] = .ok (.setSp 3000) ∧
    decodeLine .exact [.text "SET", .text "KX", .value (.num 1)] = .error .unknownParameter ∧
    decodeLine .exact [.text "SET", .text "KP"] = .error .malformed ∧
    decodeLine .exact [.text "KP", .value (.num 2)] = .error .malformed := by decide +kernel

/-- The host's numbering: the rows INIT (`0x1`) and RESET (`0xF`), and the reserved `0x0`. -/
theorem test_decodeTableWord :
    decodeTableWord 8 0x01 = some (.init 0 0 0 0) ∧ decodeTableWord 8 0x0F = some .reset ∧
    decodeTableWord 8 0x00 = none := by decide +kernel

/-- Rules R30 and R190: the codes of `mode` on a status output and of the conditions in traces. -/
theorem test_codes :
    [Mode.running, .stopped, .objectPresent].map Mode.code = [0#2, 1#2, 2#2] ∧
    [Condition.sensorTimeout, .malformed, .unknownParameter, .stopCondition].map Condition.code =
      [1, 2, 3, 4] := by decide

/-! ## One step each, expected results from 95_test_vectors.md and the rules' own examples -/

/-- V-P3. -/
theorem test_init :
    let t := after (exec (.init 2 3 4 5) { fresh with mode := .running, pidTicks := 1 })
    t.map (fun t => (t.kp, t.ki, t.kd, t.setpoint)) =
      some (.written 2, .written 3, .written 4, .written 5) ∧
    t.map (fun t => (t.integralAccumulator, t.previousError, t.pidTicks)) =
      some (.written 0, .written 0, 1) := by decide +kernel

/-- R103's example. -/
theorem test_setKp : (after (exec (.setKp 2) ready)).map (fun t => (t.kp, t.ki, t.kd)) =
    some (.written 2, .written (1 / 2), .written (1 / 4)) := by decide +kernel

/-- R104's example: the accumulator is not rescaled. -/
theorem test_setKi : (after (exec (.setKi (1 / 2)) { ready with integralAccumulator := .written 100 })).map
    (fun t => (t.ki, t.integralAccumulator)) = some (.written (1 / 2), .written 100) := by decide +kernel

/-- R105's example. -/
theorem test_setKd : (after (exec (.setKd 0) ready)).map (fun t => (t.kd, t.kp)) =
    some (.written 0, .written 1) := by decide +kernel

/-- R102's example, on an unwritten `setpoint`. -/
theorem test_setSp : (after (exec (.setSp 3000) fresh)).map (fun t => (t.setpoint, t.kp)) =
    some (.written 3000, .unwritten) := by decide +kernel

/-- V-P6, call 1: the accumulator is clamped to 8, `raw_output = 33/2`, `out = 16`. -/
theorem test_update : (after (exec (.update 0) { ready with params := alone8 })).map
    (fun t => (t.integralAccumulator, t.previousError, t.report.response)) =
    some (.written 8, .written 10, .okOut 16) := by decide +kernel

/-- V-P6, call 6: the negative clamp and the limiter at 0. -/
theorem test_update_negative : (after (exec (.update 30) { ready with
      params := alone8, integralAccumulator := .written 6, previousError := .written (-2) })).map
    (fun t => (t.integralAccumulator, t.previousError, t.report.response)) =
    some (.written (-8), .written (-20), .okOut 0) := by decide +kernel

/-- Program P1, tick 2: the PID phase fires, `act_power = 12`. -/
theorem test_tick_running :
    let t := after (exec .tick { ready with
      kp := .written (13 / 10000), ki := .written (63 / 50000), kd := .written (3 / 5000),
      setpoint := .written 0, pidTicks := 1, displayTicks := 1, potAnswers := [100], rpmAnswers := [0] })
    t.map (fun t => (t.pidTicks, t.displayTicks, t.setpoint, t.integralAccumulator, t.previousError)) =
      some (0, 2, .written 6500, .written 100, .written 6500) ∧
    t.map (fun t => (t.lastRpm, t.actEnable, t.actPower, t.mode, t.disp)) =
      some (0, true, 12, .running, .blank) := by decide +kernel

/-- Program P2, tick 6: the sample that completes the round. -/
theorem test_tick_object :
    let t := after (exec .tick { measuring with
      measurementBuffer := [9, 10, 0], measurementIndex := 2, objDisplayTicks := 1,
      distanceAnswers := [.reading 11] })
    t.map (fun t => (t.measurementBuffer, t.measurementIndex, t.measurementComplete, t.passFlag)) =
      some ([9, 10, 11], 0, true, true) ∧
    t.map (fun t => (t.holdTicks, t.measurementTicks, t.objDisplayTicks, t.actEnable, t.disp)) =
      some (0, 0, 0, false, .result 10) := by decide +kernel

/-- V-F1. -/
theorem test_stopSet : (after (exec .stopSet { ready with actEnable := true })).map
    (fun t => (t.stopFlag, t.objectFlag, t.actEnable)) = some (true, false, true) := by decide +kernel

/-- V-F2. -/
theorem test_stopClr : (after (exec .stopClr { ready with stopFlag := true, tickEnable := false })).map
    (fun t => (t.stopFlag, t.tickEnable)) = some (false, false) := by decide +kernel

/-- V-F3. -/
theorem test_objSet : (after (exec .objSet ready)).map (fun t => (t.objectFlag, t.stopFlag)) =
    some (true, false) := by decide +kernel

/-- V-F3, V-F4: the round in progress is discarded by the next TICK, not by OBJ_CLR. -/
theorem test_objClr : (after (exec .objClr { measuring with measurementIndex := 1 })).map
    (fun t => (t.objectFlag, t.measurementIndex)) = some (false, 1) := by decide +kernel

/-- V-R1, V-R2: RESET from a busy state with the tick disabled. -/
theorem test_reset :
    let t := after (exec .reset { holding with
      params := terminal, tickEnable := false, stopFlag := true, actPower := 100 })
    t.map (fun t => (t.kp, t.mode, t.tickEnable, t.stopFlag, t.objectFlag)) =
      some (.unwritten, .stopped, true, false, false) ∧
    t.map (fun t => (t.passFlag, t.actPower, t.measurementBuffer.length, t.disp)) =
      some (false, 0, 3, .blank) := by decide +kernel

/-! ## Witnesses: for each statement with hypotheses, a case that meets them -/

/-- OpcodeMapDecodes, at both bounds of a finite `NUM`. -/
theorem witness_OpcodeMapDecodes :
    ∀ v ∈ [(10 : NUM), -10, 0, 1 / 2], NumSystem.holds (.finite (-10) 10) v = true := by decide +kernel

/-- DecodeOfEncode, at both bounds of a finite `NUM`. -/
theorem witness_DecodeOfEncode :
    (Instr.init 10 (-10) 0 1).wf (.finite (-10) 10) = true ∧ (Instr.update 5).wf .exact = true := by
  decide +kernel

/-- EncodeOfDecode. -/
theorem witness_EncodeOfDecode :
    decode (.finite (-10) 10) ⟨0x6#4, [.num 10]⟩ = .ok (.update 10) := by decide +kernel

/-- ReservedAndMalformedWordsRejected: the queue, and each of the first two clauses (too few and too
many). -/
theorem witness_ReservedAndMalformedWordsRejected :
    (∀ w : OpWord, ({ fresh with pending := [.word w] } : State).pending = .word w :: []) ∧
    (0xE#4 ∈ [0x0#4, 0x7#4, 0xD#4, 0xE#4]) ∧
    (0x8#4 ∈ [0x8#4, 0x9#4, 0xA#4, 0xB#4, 0xC#4, 0xF#4] ∧ [Operand.num 1].length ≠ 0) ∧
    (0x6#4 ∈ [0x2#4, 0x3#4, 0x4#4, 0x5#4, 0x6#4] ∧ [Operand.num 1, .num 2].length ≠ 1) ∧
    (0x2#4 ∈ [0x2#4, 0x3#4, 0x4#4, 0x5#4, 0x6#4] ∧ ([] : List Operand).length ≠ 1) ∧
    [Operand.num 1, .num 2, .num 3].length ≠ 4 := by
  refine ⟨fun w => rfl, ?_, ?_, ?_, ?_, ?_⟩ <;> decide

/-- ReservedAndMalformedWordsRejected, third clause: words of the right count, one with an operand that
is no number, one with an operand just above a finite range; and a word outside all three clauses. -/
theorem witness_ReservedAndMalformedWordsRejected_operand :
    (0x5#4 ∉ [0x0#4, 0x7#4, 0xD#4, 0xE#4] ∧ 0x1#4 ∉ [0x0#4, 0x7#4, 0xD#4, 0xE#4]) ∧
    (∃ x ∈ [Operand.nonFinite], ∀ v, fresh.params.num.holds v = true → x ≠ .num v) ∧
    (∃ x ∈ [Operand.num 0, .num 0, .num 6501, .num 0],
      ∀ v, finite.num.holds v = true → x ≠ .num v) ∧
    ¬ ∃ x ∈ [Operand.num 6500], ∀ v, finite.num.holds v = true → x ≠ .num v := by
  have h0 : finite.num.holds 6501 = false := by decide +kernel
  have h1 : finite.num.holds 6500 = true := by decide +kernel
  refine ⟨by decide, ⟨.nonFinite, by simp, by simp⟩, ⟨.num 6501, by simp, ?_⟩, ?_⟩
  · rintro v hv ⟨⟩
    exact absurd hv (by simp [h0])
  · rintro ⟨x, hx, h⟩
    exact h 6500 h1 (by simpa using hx)

/-- TuningCommandsMeanOperations: a bound of a finite `NUM`, and a line that decodes. -/
theorem witness_TuningCommandsMeanOperations :
    NumSystem.holds (.finite (-10) 10) 10 = true ∧
    decodeLine (.finite (-10) 10) [.text "SET", .text "SP", .value (.num 10)] = .ok (.setSp 10) := by
  decide +kernel

/-- BadTuningLinesRejected, first clause: a line without a value, one with no number, and one with no
number under an unknown name. -/
theorem witness_BadTuningLinesRejected_malformed :
    ∀ p v, ([Token.text "SET", .text "KP"] : List Token) ≠ [.text "SET", .text p, .value (.num v)] ∧
      ([Token.text "SET", .text "KP", .value .nonFinite] : List Token) ≠
        [.text "SET", .text p, .value (.num v)] ∧
      ([Token.text "SET", .text "KX", .value .nonFinite] : List Token) ≠
        [.text "SET", .text p, .value (.num v)] := by
  intro p v; refine ⟨?_, ?_, ?_⟩ <;> simp

/-- BadTuningLinesRejected, second clause. -/
theorem witness_BadTuningLinesRejected_unknown :
    fresh.params.num.holds 1 = true ∧ "KX" ∉ ["KP", "KI", "KD", "SP"] := by decide +kernel

/-- StepRunsDecodedOperation, of a word and of a line. -/
theorem witness_StepRunsDecodedOperation :
    ({ fresh with pending := [.word ⟨0x8#4, []⟩] } : State).pending = .word ⟨0x8#4, []⟩ :: [] ∧
    decodeArrival fresh.params.num (.word ⟨0x8#4, []⟩) = .ok .tick ∧
    decodeArrival fresh.params.num (.line [.text "SET", .text "KI", .value (.num 2)]) =
      .ok (.setKi 2) := by decide +kernel

/-- StepWaitsWithNothingPending. -/
theorem witness_StepWaitsWithNothingPending : State.reset.pending = [] := rfl

/-- RegisterWritesAreIdempotent. -/
theorem witness_RegisterWritesAreIdempotent :
    (∃ v, Instr.setSp 3 = .setSp v ∨ Instr.setSp 3 = .setKp v ∨ Instr.setSp 3 = .setKi v ∨
      Instr.setSp 3 = .setKd v) ∧ ∃ a b c d, Instr.init 1 2 3 4 = .init a b c d :=
  ⟨⟨3, .inl rfl⟩, 1, 2, 3, 4, rfl⟩

/-- UpdateComputesPidOutput, first clause. -/
theorem witness_UpdateComputesPidOutput :
    let s : State := { ready with params := alone }
    s.params.standalonePid = true ∧ s.params.num = .exact ∧ s.kp = .written 1 ∧
    s.ki = .written (1 / 2) ∧ s.kd = .written (1 / 4) ∧ s.setpoint = .written 10 ∧
    s.integralAccumulator = .written 0 ∧ s.previousError = .written 0 := by decide +kernel

/-- UpdateComputesPidOutput, second clause: the first and the last register of the list. -/
theorem witness_UpdateComputesPidOutput_unwritten :
    (∀ s ∈ [fresh], [PidName.kp, .ki, .kd, .setpoint, .integralAccumulator, .previousError].find?
      (fun n => decide (s.pidReg n = .unwritten)) = some .kp) ∧
    ∀ s ∈ [{ ready with previousError := .unwritten }],
      [PidName.kp, .ki, .kd, .setpoint, .integralAccumulator, .previousError].find?
        (fun n => decide (s.pidReg n = .unwritten)) = some .previousError := by decide +kernel

/-- UpdateEvaluatesInStatedOrder, over exact numbers: V-P6, call 1. -/
theorem witness_UpdateEvaluatesInStatedOrder :
    let s : State := { ready with params := alone8 }
    let num := s.params.num
    (s.params.standalonePid = true ∧ s.kp = .written 1 ∧ s.ki = .written (1 / 2) ∧
      s.kd = .written (1 / 4) ∧ s.setpoint = .written 10 ∧ s.integralAccumulator = .written 0 ∧
      s.previousError = .written 0) ∧
    num.sub 10 0 = some 10 ∧ num.add 0 10 = some 10 ∧ num.sub 10 0 = some 10 ∧
    num.mul 1 10 = some 10 ∧ num.mul (1 / 2) (max (-s.params.maxIntegral) (min s.params.maxIntegral 10)) =
      some 4 ∧ num.mul (1 / 4) 10 = some (5 / 2) ∧ num.add 10 4 = some 14 ∧
    num.add 14 (5 / 2) = some (33 / 2) := by decide +kernel

/-- UpdateEvaluatesInStatedOrder, over a finite `NUM`. -/
theorem witness_UpdateEvaluatesInStatedOrder_finite :
    (allZero.params.standalonePid = true ∧ allZero.kp = .written 0 ∧ allZero.ki = .written 0 ∧
      allZero.kd = .written 0 ∧ allZero.setpoint = .written 0 ∧
      allZero.integralAccumulator = .written 0 ∧ allZero.previousError = .written 0) ∧
    let num := allZero.params.num
    num.sub 0 0 = some 0 ∧ num.add 0 0 = some 0 ∧ num.mul 0 0 = some 0 ∧
    num.mul 0 (max (-allZero.params.maxIntegral) (min allZero.params.maxIntegral 0)) = some 0 :=
  ⟨by decide +kernel, pointNum_arith .sub (by decide +kernel), pointNum_arith .add (by decide +kernel),
    pointNum_arith .mul (by decide +kernel), pointNum_arith .mul (by decide +kernel)⟩

/-- UpdateEvaluatesInStatedOrder, over a finite `NUM`: in range, an operation answers. -/
theorem witness_finite_operation_answers :
    ∃ error, NumSystem.sub (.finite (-6500) 6500) 10 0 = some error := by
  have h : (-6500 : NUM) ≤ ArithOp.exact .sub 10 0 ∧ ArithOp.exact .sub 10 0 ≤ (6500 : NUM) := by
    decide +kernel
  exact ⟨_, by simp only [NumSystem.sub, NumSystem.arith, if_pos h]; rfl⟩

/-- UpdateFromOutsideRejected, SchedulerOwnsPidAndBuffer. -/
theorem witness_UpdateFromOutsideRejected : fresh.params.standalonePid = false := rfl

/-- AccumulatorBoundedAfterUpdate: an UPDATE word, and a RUNNING tick whose PID phase fires. -/
theorem witness_AccumulatorBoundedAfterUpdate :
    ({ ready with params := alone } : State).params.standalonePid = true ∧
    after (exec (.update 0) { ready with params := alone }) ≠ none ∧
    ready.tickEnable = true ∧ ready.stopFlag = false ∧ ready.objectFlag = false ∧
    ready.params.pidRate ≤ ({ ready with pidTicks := 1 } : State).pidTicks + 1 ∧
    after (exec .tick { ready with pidTicks := 1, potAnswers := [50], rpmAnswers := [100] }) ≠ none := by
  decide +kernel

/-- OutputBoundedAfterUpdate: an UPDATE word, and the UPDATE of a RUNNING tick held at the upper bound. -/
theorem witness_OutputBoundedAfterUpdate :
    (after (exec (.update 0) { ready with params := alone })).map (fun t => t.report.response) =
      some (.okOut 17) ∧
    alone.minOutput = ((0 : Int) : NUM) ∧ alone.maxOutput = ((100 : Int) : NUM) ∧
    ready.tickEnable = true ∧ ready.stopFlag = false ∧ ready.objectFlag = false ∧
    ready.params.pidRate ≤ ({ ready with pidTicks := 1 } : State).pidTicks + 1 ∧
    (after (exec .tick { ready with pidTicks := 1, potAnswers := [50], rpmAnswers := [100] })).map
      State.actPower = some 100 := by decide +kernel

/-- ZeroErrorSteadyState, with `k = 1` (vector V-P4's form). -/
theorem witness_ZeroErrorSteadyState :
    let s : State := { ready with
      params := alone, integralAccumulator := .written 17, previousError := .written 3,
      pending := [.word ⟨0x6#4, [.num 10]⟩, .word ⟨0x6#4, [.num 10]⟩, .word ⟨0x6#4, [.num 10]⟩] }
    s.params.standalonePid = true ∧ s.params.num = .exact ∧ s.kp = .written 1 ∧
    s.ki = .written (1 / 2) ∧ s.kd = .written (1 / 4) ∧ s.setpoint = .written 10 ∧
    s.integralAccumulator = .written 17 ∧ s.previousError = .written 3 ∧
    -s.params.maxIntegral ≤ 17 ∧ 17 ≤ s.params.maxIntegral ∧
    s.pending = List.replicate (1 + 2) (.word ⟨0x6#4, [.num 10]⟩) ++ [] ∧
    s.params.minOutput = 0 ∧ 1 ≤ s.params.maxOutput := by decide +kernel

/-- OverflowOnlyInFiniteNumbers: the exact clause; and an UPDATE word whose error is one above the range,
one whose sum and one whose derivative are, whatever the free rounding of the error is. -/
theorem witness_OverflowOnlyInFiniteNumbers :
    let s : State := { ready with params := finite }
    (fresh.params.num = .exact ∧ s.params.standalonePid = true ∧ s.setpoint = .written 10 ∧
      s.kp = .written 1 ∧ s.ki = .written (1 / 2) ∧ s.kd = .written (1 / 4)) ∧
    UpdateOverflows s.params ⟨1, 1 / 2, 1 / 4, 10, 0, 0⟩ (-6491) ∧
    UpdateOverflows s.params ⟨1, 1 / 2, 1 / 4, 10, 13001, 0⟩ 0 ∧
    UpdateOverflows s.params ⟨1, 1 / 2, 1 / 4, 10, 0, 13001⟩ 0 := by
  have answers : ∀ op a b, -6500 ≤ ArithOp.exact op a b ∧ ArithOp.exact op a b ≤ 6500 →
      ∃ v, finite.num.arith op a b = some v ∧ -6500 ≤ v ∧ v ≤ 6500 := fun op a b h =>
    ⟨clamp (Config.roundOp op a b) (-6500) 6500, if_pos h, le_clamp (by norm_num),
      clamp_le (by norm_num)⟩
  obtain ⟨error, e1, lo, hi⟩ := answers .sub 10 0 (by decide +kernel)
  refine ⟨by decide +kernel, .inl (.inr (by decide +kernel)), .inr ⟨error, e1, .inl (.inr ?_)⟩, ?_⟩
  · change 6500 < 13001 + error
    linarith
  · obtain ⟨sum, e2, -⟩ := answers .add 0 error (by simp only [ArithOp.exact, zero_add]; exact ⟨lo, hi⟩)
    refine .inr ⟨error, e1, .inr ⟨sum, e2, .inl (.inl ?_)⟩⟩
    change error - 13001 < -6500
    linarith

/-- OverflowOnlyInFiniteNumbers, the RUNNING tick: its hypotheses over exact and over finite numbers. -/
theorem witness_OverflowOnlyInFiniteNumbers_tick :
    let s : State := { ready with pidTicks := 1, potAnswers := [1], rpmAnswers := [-6500] }
    let z : State := { allZero with pidTicks := 1, potAnswers := [0], rpmAnswers := [0] }
    (s.tickEnable = true ∧ s.stopFlag = false ∧ s.objectFlag = false ∧
      s.params.pidRate ≤ s.pidTicks + 1 ∧ s.integralAccumulator = .written 0 ∧
      s.previousError = .written 0 ∧ s.params.num.mul 1 s.params.maxRpm = some 6500 ∧
      s.params.num.div 6500 100 = some 65) ∧
    (s.PotNext 1 [] 0 ∧ s.RpmNext 0 (-6500) [] 0) ∧
    (z.tickEnable = true ∧ z.stopFlag = false ∧ z.objectFlag = false ∧
      z.params.pidRate ≤ z.pidTicks + 1 ∧ z.kp = .written 0 ∧ z.integralAccumulator = .written 0) ∧
    (z.PotNext 0 [] 0 ∧ z.RpmNext 0 0 [] 0) ∧
    z.params.num.mul 0 z.params.maxRpm = some 0 ∧ z.params.num.div 0 100 = some 0 :=
  ⟨by decide +kernel, ⟨.inl ⟨rfl, rfl, by decide +kernel⟩, .inl ⟨rfl, rfl, rfl⟩⟩, by decide +kernel,
    ⟨.inl ⟨rfl, rfl, by decide +kernel⟩, .inl ⟨rfl, rfl, by decide +kernel⟩⟩,
    pointNum_arith .mul (by decide +kernel), pointNum_arith .div (by decide +kernel)⟩

/-- A sum that the next addition takes above a finite range, whatever the free rounding of it is. -/
theorem finite_runningSum : ∃ total, finite.num.RunningSum [1, 2] total ∧
    finite.num.Leaves .add total 13001 := by
  refine ⟨clamp (Config.roundOp .add 1 2) (-6500) 6500, .next (l := [1]) 2 (.first 1) ?_, .inr ?_⟩
  · exact if_pos (by decide +kernel)
  · have := le_clamp (x := Config.roundOp .add 1 2) (lo := -6500) (hi := 6500) (by norm_num)
    change 6500 < _ + 13001
    linarith

/-- TickOverflowFaults, first two clauses: a product out of range, a first sum one above it. -/
theorem witness_TickOverflowFaults :
    let s : State := { ready with params := finite, pidTicks := 1, potAnswers := [2] }
    let d : State := { measuring with
      params := finite, measurementIndex := 2, measurementBuffer := [6500, 1, 0],
      distanceAnswers := [.reading 11] }
    (s.tickEnable = true ∧ s.stopFlag = false ∧ s.objectFlag = false ∧
      s.params.pidRate ≤ s.pidTicks + 1) ∧
    (s.PotNext 2 [] 0 ∧ s.params.num.Leaves .mul 2 s.params.maxRpm) ∧
    (d.tickEnable = true ∧ d.stopFlag = false ∧ d.objectFlag = true ∧
      d.measurementComplete = false ∧ d.params.measurementRate ≤ d.measurementTicks + 1 ∧
      d.measurementBuffer.length = d.params.n ∧ d.measurementIndex + 1 = d.params.n ∧
      d.measurementBuffer.set d.measurementIndex 11 = [6500] ++ 1 :: [11]) ∧
    (d.DistanceNext (.reading 11) [] 0 ∧ d.params.num.RunningSum [6500] 6500 ∧
      d.params.num.Leaves .add 6500 1) :=
  ⟨by decide +kernel, ⟨.inl ⟨rfl, rfl, by decide +kernel⟩, .inr (by decide +kernel)⟩, by decide +kernel,
    .inl ⟨rfl, rfl, by decide +kernel⟩, .first _, .inr (by decide +kernel)⟩

/-- TickOverflowFaults, second clause at a later addition, in a round of four samples. -/
theorem witness_TickOverflowFaults_later :
    let d : State := { measuring with
      params := finite4, measurementIndex := 3, measurementBuffer := [1, 2, 13001, 0],
      distanceAnswers := [.reading 11] }
    (d.params.measurementRate ≤ d.measurementTicks + 1 ∧
      d.measurementBuffer.length = d.params.n ∧ d.measurementIndex + 1 = d.params.n ∧
      d.measurementBuffer.set d.measurementIndex 11 = [1, 2] ++ 13001 :: [11]) ∧
    d.DistanceNext (.reading 11) [] 0 ∧
    ∃ total, d.params.num.RunningSum [1, 2] total ∧ d.params.num.Leaves .add total 13001 :=
  ⟨by decide +kernel, .inl ⟨rfl, rfl, by decide +kernel⟩, finite_runningSum⟩

/-- TickOverflowFaults, third clause: a hold tick whose display fires. -/
theorem witness_TickOverflowFaults_hold :
    let h : State := { holding with
      params := finite, objDisplayTicks := 1, measurementBuffer := [1, 2, 13001] }
    (h.tickEnable = true ∧ h.stopFlag = false ∧ h.objectFlag = true ∧
      h.measurementComplete = true ∧ h.params.displayRate / 2 ≤ h.objDisplayTicks + 1 ∧
      h.measurementBuffer = [1, 2] ++ 13001 :: []) ∧
    ∃ total, h.params.num.RunningSum [1, 2] total ∧ h.params.num.Leaves .add total 13001 :=
  ⟨by decide +kernel, finite_runningSum⟩

/-- DisabledTickIgnored. -/
theorem witness_DisabledTickIgnored :
    ({ ready with params := terminal, tickEnable := false } : State).tickEnable = false := rfl

/-- OneBranchPerTickByPrecedence, TickCountersCount: a delivered TICK of each branch. -/
theorem witness_OneBranchPerTickByPrecedence :
    ready.tickEnable = true ∧ measuring.tickEnable = true ∧
    (after (exec .tick ready)).map State.mode = some .running ∧
    (after (exec .tick { ready with params := terminal, tickEnable := false })).isSome = true ∧
    (after (exec .tick { measuring with stopFlag := true })).map State.mode = some .stopped ∧
    (after (exec .tick { measuring with measurementTicks := 0 })).map State.mode =
      some .objectPresent := by decide +kernel

/-- StoppedTick, with both flags set. -/
theorem witness_StoppedTick : let s : State := { measuring with stopFlag := true }
    s.tickEnable = true ∧ s.stopFlag = true := by decide

/-- ObjectTickBetweenSamples. -/
theorem witness_ObjectTickBetweenSamples : let s : State := { measuring with measurementTicks := 0 }
    s.tickEnable = true ∧ s.stopFlag = false ∧ s.objectFlag = true ∧ s.measurementComplete = false ∧
    s.measurementTicks + 1 < s.params.measurementRate := by decide +kernel

/-- ObjectTickTakesSample, with a listed timeout; a listed reading at each bound and a free answer
are the other cases of `DistanceNext`. -/
theorem witness_ObjectTickTakesSample :
    let s : State := { measuring with distanceAnswers := [.timeout, .reading 9] }
    (s.tickEnable = true ∧ s.stopFlag = false ∧ s.objectFlag = true ∧ s.measurementComplete = false ∧
      s.params.measurementRate ≤ s.measurementTicks + 1 ∧
      s.measurementIndex < s.measurementBuffer.length ∧ s.measurementIndex + 1 ≠ s.params.n) ∧
    s.DistanceNext .timeout [.reading 9] 0 := by
  refine ⟨by decide +kernel, .inl ⟨rfl, rfl, rfl⟩⟩

theorem witness_DistanceNext_bounds :
    ({ measuring with distanceAnswers := [.reading 2] } : State).DistanceNext (.reading 2) [] 0 ∧
    ({ measuring with distanceAnswers := [.reading 400] } : State).DistanceNext (.reading 400) [] 0 ∧
    measuring.DistanceNext (freeDistanceAnswer measuring.params 0) [] 1 := by
  refine ⟨.inl ⟨rfl, rfl, by decide +kernel⟩, .inl ⟨rfl, rfl, by decide +kernel⟩,
    .inr ⟨rfl, rfl, rfl, rfl⟩⟩

/-- ObjectTickCompletesRound. -/
theorem witness_ObjectTickCompletesRound :
    let s : State := { measuring with measurementIndex := 2, distanceAnswers := [.reading 11] }
    (s.params.num = .exact ∧ s.tickEnable = true ∧ s.stopFlag = false ∧ s.objectFlag = true ∧
      s.measurementComplete = false ∧ s.params.measurementRate ≤ s.measurementTicks + 1 ∧
      s.measurementBuffer.length = s.params.n ∧ s.measurementIndex + 1 = s.params.n) ∧
    s.DistanceNext (.reading 11) [] 0 := by
  refine ⟨by decide +kernel, .inl ⟨rfl, rfl, by decide +kernel⟩⟩

/-- ObjectTickCompletesRoundInAnyNumbers: the sums and the mean of program P2's round, over exact
numbers, and a round over a finite `NUM`. -/
theorem witness_ObjectTickCompletesRoundInAnyNumbers :
    let z : State := { allZero with
      objectFlag := true, measurementTicks := 1, measurementIndex := 2, distanceAnswers := [.timeout] }
    (NumSystem.exact.RunningSum ([9, 10, 0].set 2 11) 30 ∧ NumSystem.exact.div 30 3 = some 10) ∧
    (z.tickEnable = true ∧ z.stopFlag = false ∧ z.objectFlag = true ∧ z.measurementComplete = false ∧
      z.params.measurementRate ≤ z.measurementTicks + 1 ∧
      z.measurementBuffer.length = z.params.n ∧ z.measurementIndex + 1 = z.params.n) ∧
    z.DistanceNext .timeout [] 0 ∧
    z.params.num.RunningSum (z.measurementBuffer.set z.measurementIndex z.params.errorSentinel) 0 ∧
    z.params.num.div 0 z.params.n = some 0 :=
  ⟨⟨.next (l := [9, 10]) 11 (.next (l := [9]) (total' := 19) 10 (.first 9) (by decide +kernel))
      (by decide +kernel), by decide +kernel⟩,
    by decide +kernel, .inl ⟨rfl, rfl, rfl⟩,
    .next (l := [0, 0]) 0 (.next (l := [0]) 0 (.first 0) (pointNum_arith .add (by decide +kernel)))
      (pointNum_arith .add (by decide +kernel)),
    pointNum_arith .div (by decide +kernel)⟩

/-- ObjectTickHoldsResult, on the tick before the hold expires and on the one that expires it. -/
theorem witness_ObjectTickHoldsResult :
    ∀ s ∈ [{ holding with holdTicks := 1 }, { holding with holdTicks := 2 }],
      s.params.num = .exact ∧ s.tickEnable = true ∧ s.stopFlag = false ∧ s.objectFlag = true ∧
      s.measurementComplete = true := by decide +kernel

/-- ObjectTickHoldsResultInAnyNumbers: both clauses over a finite `NUM`. -/
theorem witness_ObjectTickHoldsResultInAnyNumbers :
    let z : State := { allZero with objectFlag := true, measurementComplete := true }
    (z.tickEnable = true ∧ z.stopFlag = false ∧ z.objectFlag = true ∧ z.measurementComplete = true ∧
      z.objDisplayTicks + 1 < z.params.displayRate / 2 ∧
      z.params.displayRate / 2 ≤ ({ z with objDisplayTicks := 1 } : State).objDisplayTicks + 1) ∧
    z.params.num.RunningSum z.measurementBuffer 0 ∧ z.params.num.div 0 z.params.n = some 0 :=
  ⟨by decide +kernel,
    .next (l := [0, 0]) 0 (.next (l := [0]) 0 (.first 0) (pointNum_arith .add (by decide +kernel)))
      (pointNum_arith .add (by decide +kernel)),
    pointNum_arith .div (by decide +kernel)⟩

/-- RunningTickBetweenPidPhases: both clauses, at the tick before the display fires and on it. -/
theorem witness_RunningTickBetweenPidPhases :
    (∀ s ∈ [{ ready with displayTicks := 2 }, { ready with displayTicks := 3 }],
      s.tickEnable = true ∧ s.stopFlag = false ∧ s.objectFlag = false ∧
      s.pidTicks + 1 < s.params.pidRate ∧ s.setpoint = .written 10) ∧
    ({ ready with displayTicks := 2 } : State).displayTicks + 1 < ready.params.displayRate ∧
    ready.params.displayRate ≤ ({ ready with displayTicks := 3 } : State).displayTicks + 1 := by
  decide +kernel

/-- RunningTickFiresPidPhase: listed answers at the bounds of the contract. -/
theorem witness_RunningTickFiresPidPhase :
    let s : State := { ready with pidTicks := 1, potAnswers := [100, 0], rpmAnswers := [-5] }
    (s.params.num = .exact ∧ s.tickEnable = true ∧ s.stopFlag = false ∧ s.objectFlag = false ∧
      s.params.pidRate ≤ s.pidTicks + 1 ∧ s.kp = .written 1 ∧ s.ki = .written (1 / 2) ∧
      s.kd = .written (1 / 4) ∧ s.integralAccumulator = .written 0 ∧ s.previousError = .written 0) ∧
    s.PotNext 100 [0] 0 ∧ s.RpmNext 0 (-5) [] 0 := by
  refine ⟨by decide +kernel, .inl ⟨rfl, rfl, by decide +kernel⟩, .inl ⟨rfl, rfl, rfl⟩⟩

/-- RunningTickFiresPidPhaseInAnyNumbers: the operations of the tick above over exact numbers. The tick
of `witness_OverflowOnlyInFiniteNumbers_tick`, with the operations of
`witness_UpdateEvaluatesInStatedOrder_finite`, is one over a finite `NUM`. -/
theorem witness_RunningTickFiresPidPhaseInAnyNumbers :
    let num := ready.params.num
    num.mul 100 ready.params.maxRpm = some 650000 ∧ num.div 650000 100 = some 6500 ∧
    num.sub 6500 (-5) = some 6505 ∧ num.add 0 6505 = some 6505 ∧ num.sub 6505 0 = some 6505 ∧
    num.mul 1 6505 = some 6505 ∧
    num.mul (1 / 2) (max (-ready.params.maxIntegral) (min ready.params.maxIntegral 6505)) = some 50 ∧
    num.mul (1 / 4) 6505 = some (6505 / 4) ∧ num.add 6505 50 = some 6555 ∧
    num.add 6555 (6505 / 4) = some (32725 / 4) := by decide +kernel

/-- The free answers, which `PotNext` and `RpmNext` also cover. -/
theorem witness_free_answers :
    ready.PotNext (clamp (Config.freePot 0) 0 100) [] 1 ∧ ready.RpmNext 1 (Config.freeRpm 1) [] 2 :=
  ⟨.inr ⟨rfl, rfl, rfl, rfl⟩, .inr ⟨rfl, rfl, rfl, rfl⟩⟩

/-- RunningTickBeforeInitFaults, both clauses. -/
theorem witness_RunningTickBeforeInitFaults :
    let s : State := { fresh with pidTicks := 1, potAnswers := [0], rpmAnswers := [0] }
    let d : State := { fresh with displayTicks := 3 }
    (s.tickEnable = true ∧ s.stopFlag = false ∧ s.objectFlag = false ∧
      s.params.pidRate ≤ s.pidTicks + 1 ∧ s.params.num.mul 0 s.params.maxRpm = some 0 ∧
      s.params.num.div 0 100 = some 0 ∧
      [PidName.kp, .ki, .kd, .integralAccumulator, .previousError].find?
        (fun n => decide (s.pidReg n = .unwritten)) = some .kp) ∧
    (s.PotNext 0 [] 0 ∧ s.RpmNext 0 0 [] 0) ∧
    (d.tickEnable = true ∧ d.stopFlag = false ∧ d.objectFlag = false ∧
      d.pidTicks + 1 < d.params.pidRate ∧ d.params.displayRate ≤ d.displayTicks + 1 ∧
      d.setpoint = .unwritten) := by
  refine ⟨by decide +kernel, ⟨.inl ⟨rfl, rfl, by decide +kernel⟩, .inl ⟨rfl, rfl, rfl⟩⟩,
    by decide +kernel⟩

/-- AnswersOutsideContractRefused: just outside each bound. -/
theorem witness_AnswersOutsideContractRefused :
    (∀ s ∈ [{ ready with pidTicks := 1, potAnswers := [-1] },
        { ready with pidTicks := 1, potAnswers := [101] }],
      s.tickEnable = true ∧ s.stopFlag = false ∧ s.objectFlag = false ∧
      s.params.pidRate ≤ s.pidTicks + 1) ∧
    (∀ s ∈ [{ measuring with distanceAnswers := [.reading 1] },
        { measuring with distanceAnswers := [.reading 401] }],
      s.tickEnable = true ∧ s.stopFlag = false ∧ s.objectFlag = true ∧
      s.measurementComplete = false ∧ s.params.measurementRate ≤ s.measurementTicks + 1) ∧
    (-1 < (0 : NUM) ∧ (100 : NUM) < 101 ∧ 1 < ready.params.distMin ∧ ready.params.distMax < 401) ∧
    refusalOf (exec .tick { ready with pidTicks := 1, potAnswers := [101] }) =
      some (.potOutsideContract 101) := by decide +kernel

/-- AnswersUsedMeetContract: each of the three calls answers. -/
theorem witness_AnswersUsedMeetContract :
    ({ ready with potAnswers := [0] } : State).potRead = .ok (0, ready) ∧
    ({ ready with rpmAnswers := [-5] } : State).rpmRead = .ok (-5, ready) ∧
    ({ ready with distanceAnswers := [.reading 400] } : State).distanceRead = .ok (400, ready) := by
  refine ⟨?_, ?_, ?_⟩
  · exact potRead_eq_ok.mpr ⟨[], 0, .inl ⟨rfl, rfl, by decide +kernel⟩, rfl⟩
  · exact rpmRead_eq_ok.mpr ⟨[], 0, .inl ⟨rfl, rfl, rfl⟩, rfl⟩
  · exact distanceRead_eq_ok.mpr ⟨.reading 400, [], 0, .inl ⟨rfl, rfl, by decide +kernel⟩, rfl, rfl⟩

/-- TickCountersCount: the clauses that need a sample due, one not due, and a hold. -/
theorem witness_TickCountersCount :
    (after (exec .tick { measuring with distanceAnswers := [.timeout] })).map
      (fun t => (t.mode, t.measurementTicks)) = some (.objectPresent, 0) ∧
    (after (exec .tick { holding with holdTicks := 2 })).map (fun t => (t.mode, t.holdTicks)) =
      some (.objectPresent, 0) ∧
    (after (exec .tick { holding with holdTicks := 1 })).map (fun t => (t.mode, t.holdTicks)) =
      some (.objectPresent, 2) := by decide +kernel

/-- PidKeptOutsideRunning: either flag. -/
theorem witness_PidKeptOutsideRunning :
    holding.objectFlag = true ∧ after (exec .tick holding) ≠ none ∧
    ({ ready with stopFlag := true } : State).stopFlag = true ∧
    after (exec .tick { ready with stopFlag := true }) ≠ none := by decide +kernel

/-- ModeChangesOnlyWithFlags, first clause: a RUNNING tick, STOP_SET, a STOPPED tick. -/
theorem witness_ModeChangesOnlyWithFlags :
    let t := (after (exec .tick ready)).getD fresh
    let u := (after (exec .stopSet t)).getD fresh
    let v := (after (exec .tick u)).getD fresh
    ready.tickEnable = true ∧ (after (exec .tick ready)).isSome = true ∧ u.mode = t.mode ∧
    (after (exec .tick u)).isSome = true ∧ v.mode ≠ u.mode := by decide +kernel

/-- ModeChangesOnlyWithFlags, second clause, SchedulerWritesFlagOnlyAtHoldExpiry: a TICK that clears
`object_flag`. -/
theorem witness_SchedulerWritesFlagOnlyAtHoldExpiry :
    (after (exec .tick { holding with holdTicks := 2 })).map State.objectFlag = some false ∧
    holding.objectFlag = true := by decide +kernel

/-- ActuatorFollowsBranch, of each of the three kinds of operation. -/
theorem witness_ActuatorFollowsBranch :
    (after (exec .tick ready)).map State.actEnable = some true ∧
    (after (exec .reset { ready with actEnable := true })).map State.actEnable = some false ∧
    (after (exec .stopSet { ready with actEnable := true })).map State.actEnable = some true := by
  decide +kernel

/-- TickEnableWriters: the terminal STOPPED tick, an ignored tick, and RESET. -/
theorem witness_TickEnableWriters :
    (after (exec .tick { ready with params := terminal, stopFlag := true })).map State.tickEnable =
      some false ∧
    (after (exec .tick { ready with params := terminal, tickEnable := false })).isSome = true ∧
    (after (exec .reset { ready with params := terminal, tickEnable := false })).map State.tickEnable =
      some true := by decide +kernel

/-- The scheduler invariant of the states above. -/
theorem measuring_inv : ({ measuring with measurementTicks := 0 } : State).SchedulerInv := by
  constructor <;> decide +kernel

/-- MeasurementRoundCompletes: program P4's round, a timeout in it. -/
theorem witness_MeasurementRoundCompletes :
    let s : State := { measuring with
      measurementTicks := 0, distanceAnswers := [.reading 12, .timeout, .reading 12],
      pending := List.replicate 6 (.word ⟨0x8#4, []⟩) }
    (s.params.num = .exact ∧ s.tickEnable = true ∧ s.stopFlag = false ∧ s.objectFlag = true ∧
      s.measurementComplete = false ∧ s.measurementIndex = 0 ∧ s.measurementTicks = 0 ∧
      [DistanceAnswer.reading 12, .timeout, .reading 12].length = s.params.n ∧
      s.distanceAnswers = [.reading 12, .timeout, .reading 12] ++ [] ∧
      (∀ a ∈ [DistanceAnswer.reading 12, .timeout, .reading 12],
        distanceContract s.params a = true) ∧
      s.pending = List.replicate (s.params.n * s.params.measurementRate) (.word ⟨0x8#4, []⟩) ++ []) ∧
    s.SchedulerInv := by
  refine ⟨by decide +kernel, ?_⟩
  constructor <;> decide +kernel

/-- HoldLastsHoldTicks: program P2 from tick 6 on. -/
theorem witness_HoldLastsHoldTicks :
    let s : State := { holding with pending := List.replicate 3 (.word ⟨0x8#4, []⟩) }
    s.params.num = .exact ∧ s.tickEnable = true ∧ s.stopFlag = false ∧ s.objectFlag = true ∧
    s.measurementComplete = true ∧ s.holdTicks = 0 ∧ 2 < s.params.holdTicks ∧
    s.pending = List.replicate s.params.holdTicks (.word ⟨0x8#4, []⟩) ++ [] := by decide +kernel

/-- StopRequestActsAtNextTick. -/
theorem witness_StopRequestActsAtNextTick : ready.tickEnable = true := rfl

/-- BufferReadAfterWrite: the last index inside, and the first outside. -/
theorem witness_BufferReadAfterWrite :
    2 < fresh.measurementBuffer.length ∧ fresh.measurementBuffer.length ≤ 3 := by decide

/-- SchedulerInvariantKept, AccumulatorInvariantKept, ParametersNeverChange. -/
theorem witness_invariants :
    (fresh.SchedulerInv ∧ fresh.AccumulatorBounded) ∧
    (after (step { fresh with pending := [.word ⟨0x8#4, []⟩] })).isSome = true := by
  refine ⟨⟨by constructor <;> decide +kernel, fun v h => (by cases h)⟩, by decide +kernel⟩

/-- AccumulatorInvariantKept, with the accumulator at its bound. -/
theorem witness_AccumulatorInvariantKept :
    ({ ready with integralAccumulator := .written 100 } : State).AccumulatorBounded := by
  intro v h; cases h; decide +kernel

/-- SchedulerInvariantAtReset, WrittenRegistersStayWritten. -/
theorem witness_WrittenRegistersStayWritten :
    (after (exec .tick ready)).isSome = true ∧ ready.pidReg .kd ≠ .unwritten ∧
    (after (exec .reset ready)).isSome = true ∧
    (after (exec (.init 1 2 3 4) fresh)).isSome = true := by decide +kernel

/-- InitialisedBlockNeverStops: the block after INIT, a TICK pending. -/
theorem witness_InitialisedBlockNeverStops :
    ({ ready with pending := [.word ⟨0x8#4, []⟩], potAnswers := [50] } : State).Safe ∧
    decodeArrival ready.params.num (.word ⟨0x8#4, []⟩) ≠ .ok .reset := by
  refine ⟨⟨rfl, by constructor <;> decide +kernel, fun name => ?_, ⟨?_, ?_, ?_⟩⟩, by decide +kernel⟩
  · cases name <;> simp [State.pidReg, ready]
  · intro p h; simp at h; subst h; decide +kernel
  · intro r h; cases h
  · intro a h; cases h

/-- SchedulerOwnsPidAndBuffer: an operation that is no TICK, RESET or INIT. -/
theorem witness_SchedulerOwnsPidAndBuffer :
    fresh.params.standalonePid = false ∧ (after (exec (.setKp 2) fresh)).isSome = true ∧
    Instr.setKp 2 ≠ .tick ∧ Instr.setKp 2 ≠ .reset ∧ ∀ a b c d, Instr.setKp 2 ≠ .init a b c d := by
  refine ⟨rfl, by decide +kernel, by simp, by simp, by simp⟩

/-- OutputRegistersAreReadByNoOperation: each ending occurs. -/
theorem witness_OutputRegistersAreReadByNoOperation :
    (after (exec .tick ready)).isSome = true ∧
    faultOf (exec .tick { fresh with pidTicks := 1, potAnswers := [0], rpmAnswers := [0] }) =
      some (.useBeforeInit .kp) ∧
    refusalOf (exec .tick { measuring with distanceAnswers := [.reading 401] }) =
      some (.distanceOutsideContract 401) := by decide +kernel

end Sys2Proof.Tests
end

/-! What an OBJECT_PRESENT tick does in every number system (R133 to R138): the tick that completes
a round, and the ticks that hold its result. The number system enters only through `Mean`, so the
rules below take its value as a hypothesis. -/

namespace Sys2Proof.Machine

/-- The state in which an OBJECT_PRESENT tick's phases begin (R133). -/
def objectStart (s : State) : State :=
  { s.respondOk with mode := .objectPresent, actEnable := false }

/-! ## The tick that completes a round (R135) -/

/-- R133 to R135: the measurement phase whose sample fills the buffer, when `Mean` answers. -/
theorem measureOrHold_of_mean {s : State} {a : DistanceAnswer} {rest : List DistanceAnswer}
    {draws : Nat} {mean : NUM} (hc : s.measurementComplete = false)
    (hr : s.params.measurementRate ≤ s.measurementTicks + 1)
    (hi : s.measurementIndex < s.measurementBuffer.length)
    (hn : s.measurementIndex + 1 = s.params.n) (hd : s.DistanceNext a rest draws)
    (hm : s.params.num.mean s.params.n
      (s.measurementBuffer.set s.measurementIndex (distanceValue s.params a)) = some mean) :
    s.measureOrHold = .ok { s with
      measurementTicks := 0, distanceAnswers := rest, freeDraws := draws,
      measurementBuffer := s.measurementBuffer.set s.measurementIndex (distanceValue s.params a),
      measurementIndex := 0, measurementComplete := true, passFlag := passCheck s.params mean,
      holdTicks := 0,
      report := ⟨s.report.response, s.report.conditions ++ timeoutConditions a⟩ } := by
  have sample := takeSample_eq_ok.mpr
    ⟨a, rest, draws, hd, hi, .inr ⟨hn, completeRound_eq_ok.mpr ⟨mean, hm, rfl⟩⟩⟩
  exact measureOrHold_eq_ok.mpr (.inr ⟨hc, measurementPhase_eq_ok.mpr (.inr ⟨hr, sample⟩)⟩)

/-- R133 to R138 of the tick whose sample fills the buffer, when `Mean` answers. The hold has only
begun, so it does not expire on this tick (R10: `HOLD_TICKS` is at least 1). -/
theorem execTick_completes_round {s : State} {a : DistanceAnswer} {rest : List DistanceAnswer}
    {draws : Nat} {mean : NUM} (he : s.tickEnable = true) (hs : s.stopFlag = false)
    (ho : s.objectFlag = true) (hc : s.measurementComplete = false)
    (hr : s.params.measurementRate ≤ s.measurementTicks + 1)
    (hi : s.measurementIndex < s.measurementBuffer.length)
    (hn : s.measurementIndex + 1 = s.params.n) (hd : s.DistanceNext a rest draws)
    (hm : s.params.num.mean s.params.n
      (s.measurementBuffer.set s.measurementIndex (distanceValue s.params a)) = some mean) :
    execTick s = .next { s with
      mode := .objectPresent, actEnable := false, measurementTicks := 0,
      distanceAnswers := rest, freeDraws := draws,
      measurementBuffer := s.measurementBuffer.set s.measurementIndex (distanceValue s.params a),
      measurementIndex := 0, measurementComplete := true, passFlag := passCheck s.params mean,
      holdTicks := 0,
      objDisplayTicks :=
        if s.params.displayRate / 2 ≤ s.objDisplayTicks + 1 then 0 else s.objDisplayTicks + 1,
      disp := if s.params.displayRate / 2 ≤ s.objDisplayTicks + 1 then .result mean else s.disp,
      report := ⟨.ok, timeoutConditions a⟩ } := by
  have phase := measureOrHold_of_mean (s := objectStart s) hc hr hi hn hd hm
  obtain ⟨-, -, -, -, hold_pos, -⟩ := s.params.legal
  have tick := execTick_object_of_phases he hs ho phase
    (objectDisplayPhase_of_frame (objectFrame_of_mean rfl hm))
  rw [tick, holdExpiry_kept (.inr (by exact hold_pos))]
  rfl

/-! ## The ticks that hold the result (R136 to R138) -/

/-- R138 in one equation, for a completed round. -/
theorem holdExpiry_of_complete {s : State} (hc : s.measurementComplete = true)
    (ho : s.objectFlag = true) :
    s.holdExpiry = { s with
      holdTicks := if s.params.holdTicks ≤ s.holdTicks then 0 else s.holdTicks,
      measurementComplete := !decide (s.params.holdTicks ≤ s.holdTicks),
      objectFlag := !decide (s.params.holdTicks ≤ s.holdTicks) } := by
  by_cases hh : s.params.holdTicks ≤ s.holdTicks
  · simp [holdExpiry_expired hc hh, hh]
  · rw [holdExpiry_kept (.inr (not_le.mp hh)), if_neg hh, decide_eq_false hh]
    cases s; cases hc; cases ho; rfl

/-- The state in which the display phase of a hold tick begins. -/
def heldState (s : State) : State := (objectStart s).holdPhase

/-- A hold tick from what its display phase leaves (R133, R136, R138). -/
theorem execTick_hold_of_display {s : State} {ticks : Nat} {frame : Frame}
    (he : s.tickEnable = true) (hs : s.stopFlag = false) (ho : s.objectFlag = true)
    (hc : s.measurementComplete = true)
    (hd : (heldState s).objectDisplayPhase =
      .ok { heldState s with objDisplayTicks := ticks, disp := frame }) :
    execTick s = .next { s with
      mode := .objectPresent, actEnable := false,
      holdTicks := if s.params.holdTicks ≤ s.holdTicks + 1 then 0 else s.holdTicks + 1,
      measurementComplete := !decide (s.params.holdTicks ≤ s.holdTicks + 1),
      objectFlag := !decide (s.params.holdTicks ≤ s.holdTicks + 1),
      objDisplayTicks := ticks, disp := frame, report := ⟨.ok, []⟩ } := by
  have hold : (objectStart s).measureOrHold = .ok (heldState s) :=
    measureOrHold_eq_ok.mpr (.inl ⟨hc, rfl⟩)
  rw [execTick_object_of_phases he hs ho hold hd, holdExpiry_of_complete (by exact hc) (by exact ho)]
  rfl

end Sys2Proof.Machine

namespace Sys2Proof.Proofs

open Sys2Proof.Machine

/-- Settles O27: additions and division that answer are the `Mean` of the filled buffer. -/
theorem objectTickCompletesRoundInAnyNumbers :
    Obligations.ObjectTickCompletesRoundInAnyNumbers := by
  intro s a rest draws total mean he hs ho hc hr hlen hn hd buffer hsum hdiv
  have hi : s.measurementIndex < s.measurementBuffer.length := by omega
  exact execTick_completes_round he hs ho hc hr hi hn hd (hsum.mean_eq hdiv)

/-- Settles O29: the display phase is silent, or shows the `Mean` of the buffer. -/
theorem objectTickHoldsResultInAnyNumbers : Obligations.ObjectTickHoldsResultInAnyNumbers := by
  intro s he hs ho hc after
  constructor
  · intro hsilent
    exact execTick_hold_of_display he hs ho hc (objectDisplayPhase_eq_ok.mpr (.inl ⟨hsilent, rfl⟩))
  · intro total mean hfires hsum hdiv
    have frame : (heldState s).objectFrame = .ok (.result mean) :=
      objectFrame_of_mean hc (hsum.mean_eq hdiv)
    exact execTick_hold_of_display he hs ho hc
      (objectDisplayPhase_eq_ok.mpr (.inr ⟨hfires, _, frame, rfl⟩))

end Sys2Proof.Proofs

/-! What every step keeps (10_state.md). An operation other than TICK and RESET leaves the
scheduler's registers; what a TICK does is taken from `execTick_next_cases`. -/

namespace Sys2Proof.Machine

/-! ## Steps and operations -/

/-- A property that reads neither the queue nor the trace, and that every operation keeps, is kept by
every step (R67, R84). -/
theorem step_keeps {P : State → Prop} (pending : ∀ u rest, P u → P { u with pending := rest })
    (reject : ∀ u r, P u → P (u.reject r)) (operation : ∀ i u v, exec i u = .next v → P u → P v)
    {s t : State} (h : step s = .next t) (hs : P s) : P t := by
  rcases step_next_cases h with ⟨-, rfl⟩ | ⟨-, rest, -, ⟨r, -, rfl⟩ | ⟨i, -, hi⟩⟩
  · exact hs
  · exact reject _ r (pending s rest hs)
  · exact operation i _ t hi (pending s rest hs)

/-- R48: `t` is `s` but for the PID registers, the two input flags and the trace. -/
abbrev State.KeepsScheduler (s t : State) : Prop :=
  t = { s with
    kp := t.kp, ki := t.ki, kd := t.kd, setpoint := t.setpoint,
    integralAccumulator := t.integralAccumulator, previousError := t.previousError,
    stopFlag := t.stopFlag, objectFlag := t.objectFlag, report := t.report }

theorem exec_keepsScheduler {i : Instr} {s t : State} (h : exec i s = .next t) (ht : i ≠ .tick)
    (hr : i ≠ .reset) : s.KeepsScheduler t := by
  cases i with
  | tick => exact absurd rfl ht
  | reset => exact absurd rfl hr
  | update m => rcases execUpdate_next_cases h with ⟨-, rfl⟩ | ⟨-, x, r, -, -, -, -, rfl⟩ <;> rfl
  | init _ _ _ _ | setKp _ | setKi _ | setKd _ | setSp _ | stopSet | stopClr | objSet | objClr =>
    cases h; rfl

theorem exec_reset_next {s t : State} (h : exec .reset s = .next t) :
    t = s.resetRegisters.respondOk := by
  cases h; rfl

/-- What a TICK leaves of the parameters (R20), `act_enable` (R44) and `tick_enable` (R40). -/
theorem execTick_gating {s t : State} (h : execTick s = .next t) :
    t.params = s.params ∧
    (s.tickEnable = true → (t.actEnable = true ↔ t.mode = .running)) ∧
    t.tickEnable = (s.tickEnable && !(s.stopFlag && s.params.stopTerminal)) := by
  rcases execTick_next_cases h with ⟨he, rfl⟩ | ⟨he, hs, rfl⟩ |
    ⟨he, hs, -, _, _, -, ⟨-, -, rfl⟩ | ⟨-, -, rfl⟩ | ⟨-, -, rfl⟩ |
      ⟨-, -, _, _, _, -, -, ⟨-, rfl⟩ | ⟨-, _, -, rfl⟩⟩⟩ |
    ⟨he, hs, -, _, _, -, ⟨-, rfl⟩ | ⟨-, _, _, _, _, _, _, _, _, _, _, -, -, -, -, -, -, rfl⟩⟩
  case inl => simp [he]
  all_goals simp [he, hs]

theorem exec_params {i : Instr} {s t : State} (h : exec i s = .next t) : t.params = s.params := by
  by_cases ht : i = .tick
  · subst ht
    obtain ⟨kept, -, -⟩ := execTick_gating h
    exact kept
  · by_cases hr : i = .reset
    · subst hr; rw [exec_reset_next h]; rfl
    · rw [exec_keepsScheduler h ht hr]

/-! ## The PID registers (R27, R28) -/

/-- A TICK leaves all six PID registers, or its PID phase fired: then all six are written, and the
accumulator is within its bound (R140, R107). -/
theorem execTick_pid_cases {s t : State} (h : execTick s = .next t) :
    (∀ name, t.pidReg name = s.pidReg name) ∨
    (t.Initialised ∧ ∃ acc, t.integralAccumulator = .written acc ∧
      -s.params.maxIntegral ≤ acc ∧ acc ≤ s.params.maxIntegral) := by
  rcases execTick_next_cases h with ⟨-, rfl⟩ | ⟨-, -, rfl⟩ |
    ⟨-, -, -, _, _, -, ⟨-, -, rfl⟩ | ⟨-, -, rfl⟩ | ⟨-, -, rfl⟩ |
      ⟨-, -, _, _, _, -, -, ⟨-, rfl⟩ | ⟨-, _, -, rfl⟩⟩⟩ |
    ⟨-, -, -, _, _, -, ⟨-, rfl⟩ | ⟨-, _, _, _, _, _, _, _, acc, _, _, -, -, bound, -, -,
      ⟨_, _, _, _, _, hkp, hki, hkd, -, -⟩, rfl⟩⟩
  case inr.inr.inr.inr =>
    refine .inr ⟨fun name => ?_, acc, rfl, bound⟩
    cases name <;> simp [State.pidReg, hkp, hki, hkd]
  all_goals exact .inl fun name => by cases name <;> rfl

/-- R27: an operation other than RESET leaves a PID register or writes it. -/
theorem exec_pidReg_cases {i : Instr} {s t : State} (h : exec i s = .next t) (hr : i ≠ .reset)
    (name : PidName) : t.pidReg name = s.pidReg name ∨ t.pidReg name ≠ .unwritten := by
  cases i with
  | reset => exact absurd rfl hr
  | tick =>
    rcases execTick_pid_cases h with kept | ⟨written, -⟩
    · exact .inl (kept name)
    · exact .inr (written name)
  | update m =>
    rcases execUpdate_next_cases h with ⟨-, rfl⟩ | ⟨-, x, r, -, -, -, -, rfl⟩ <;>
      cases name <;> simp
  | init _ _ _ _ | setKp _ | setKi _ | setKd _ | setSp _ => cases h; cases name <;> simp
  | stopSet | stopClr | objSet | objClr => cases h; exact .inl (by cases name <;> rfl)

/-- R48: on the assembled block, INIT, TICK and RESET alone write the accumulator and the previous
error. -/
theorem exec_keepsPidState {i : Instr} {s t : State} (h : exec i s = .next t)
    (assembled : s.params.standalonePid = false) (ht : i ≠ .tick) (hr : i ≠ .reset)
    (hi : ∀ kp ki kd sp, i ≠ .init kp ki kd sp) :
    t.integralAccumulator = s.integralAccumulator ∧ t.previousError = s.previousError := by
  cases i with
  | tick => exact absurd rfl ht
  | reset => exact absurd rfl hr
  | init _ _ _ _ => exact absurd rfl (hi _ _ _ _)
  | update m =>
    rcases execUpdate_next_cases h with ⟨-, rfl⟩ | ⟨alone, -⟩
    · exact ⟨rfl, rfl⟩
    · rw [assembled] at alone; cases alone
  | setKp _ | setKi _ | setKd _ | setSp _ | stopSet | stopClr | objSet | objClr =>
    cases h; exact ⟨rfl, rfl⟩

/-- What an operation makes of the accumulator: it stays, RESET unwrites it, or the value written is
within the bound (R101, R107, R220). -/
theorem exec_accumulator_cases {i : Instr} {s t : State} (h : exec i s = .next t) :
    t.integralAccumulator = s.integralAccumulator ∨ t.integralAccumulator = .unwritten ∨
    ∃ acc, t.integralAccumulator = .written acc ∧
      -s.params.maxIntegral ≤ acc ∧ acc ≤ s.params.maxIntegral := by
  cases i with
  | reset => cases h; exact .inr (.inl rfl)
  | tick =>
    rcases execTick_pid_cases h with kept | ⟨-, written⟩
    · exact .inl (kept .integralAccumulator)
    · exact .inr (.inr written)
  | update m =>
    rcases execUpdate_next_cases h with ⟨-, rfl⟩ | ⟨-, x, r, -, -, bound, -, rfl⟩
    · exact .inl rfl
    · exact .inr (.inr ⟨_, rfl, bound⟩)
  | init _ _ _ _ =>
    cases h
    obtain ⟨-, -, -, -, -, nonneg, -⟩ := s.params.legal
    exact .inr (.inr ⟨0, rfl, neg_nonpos.mpr nonneg, nonneg⟩)
  | setKp _ | setKi _ | setKd _ | setSp _ | stopSet | stopClr | objSet | objClr =>
    cases h; exact .inl rfl

theorem exec_accumulatorBounded {i : Instr} {s t : State} (h : exec i s = .next t)
    (hs : s.AccumulatorBounded) : t.AccumulatorBounded := by
  intro v hv
  rw [exec_params h]
  rcases exec_accumulator_cases h with e | e | ⟨acc, e, bound⟩ <;> rw [e] at hv
  · exact hs v hv
  · cases hv
  · cases hv; exact bound

/-! ## The scheduler invariant (R47) -/

theorem State.SchedulerInv.of_kept {s t : State} (hs : s.SchedulerInv) (hk : s.KeepsScheduler t) :
    t.SchedulerInv := by
  rw [hk]; exact { hs with }

/-- R143: what a STOPPED and a RUNNING tick begin with. -/
theorem State.SchedulerInv.leaveObject {s : State} (hs : s.SchedulerInv) :
    s.leaveObject.SchedulerInv := by
  obtain ⟨-, measurementRate_pos, displayRate_ge, -, holdTicks_pos, -⟩ := s.params.legal
  exact { hs with
    index := Nat.zero_le _
    complete := fun h => by cases h
    hold := fun _ => rfl
    measurementTicks := measurementRate_pos
    objDisplayTicks := show 0 < s.params.displayRate / 2 by omega
    holdTicks := holdTicks_pos }

/-- R142: a counter that is cleared when it reaches its rate stays below it. -/
theorem wrap_lt {rate ticks : Nat} (h : 0 < rate) :
    (if rate ≤ ticks + 1 then 0 else ticks + 1) < rate := by
  split <;> omega

theorem resetRegisters_schedulerInv (s : State) : s.resetRegisters.SchedulerInv := by
  obtain ⟨pidRate_pos, measurementRate_pos, displayRate_ge, -, holdTicks_pos, -⟩ := s.params.legal
  exact {
    bufferLength := freeBuffer_wf _ _
    index := Nat.zero_le _
    complete := fun h => by cases h
    hold := fun _ => rfl
    pidTicks := pidRate_pos
    measurementTicks := measurementRate_pos
    displayTicks := show 0 < s.params.displayRate by omega
    objDisplayTicks := show 0 < s.params.displayRate / 2 by omega
    holdTicks := holdTicks_pos
    power := show (0 : Int) ≤ 0 ∧ (0 : Int) ≤ 100 by decide }

/-- The model's reset state is one that RESET leaves: `N` free values are drawn for its buffer. -/
theorem reset_eq_resetRegisters :
    State.reset = ({ State.reset with freeDraws := 0 } : State).resetRegisters := rfl

theorem execTick_schedulerInv {s t : State} (h : execTick s = .next t) (hs : s.SchedulerInv) :
    t.SchedulerInv := by
  obtain ⟨pidRate_pos, measurementRate_pos, displayRate_ge, n_pos, holdTicks_pos, -⟩ := s.params.legal
  have length : s.measurementBuffer.length = s.params.n := by
    simpa [Memory.wf] using hs.bufferLength
  rcases execTick_next_cases h with ⟨-, rfl⟩ | ⟨-, -, rfl⟩ |
    ⟨-, -, -, _, _, rfl, object⟩ | ⟨-, -, -, _, _, rfl, running⟩
  · exact { hs with }
  · exact { hs.leaveObject with }
  · have display := wrap_lt (ticks := s.objDisplayTicks) (show 0 < s.params.displayRate / 2 by omega)
    rcases object with ⟨hc, hh, rfl⟩ | ⟨hc, hh, rfl⟩ | ⟨hc, hm, rfl⟩ |
      ⟨hc, hm, a, rest, draws, -, hi, ⟨hn, rfl⟩ | ⟨hn, mean, -, rfl⟩⟩
    · exact { hs with
        objDisplayTicks := display, holdTicks := hh, hold := fun h => by rw [hc] at h; cases h }
    · exact { hs with
        objDisplayTicks := display, holdTicks := holdTicks_pos, hold := fun _ => rfl
        complete := fun h => by cases h }
    · exact { hs with
        objDisplayTicks := display, measurementTicks := hm
        complete := fun h => by rw [hc] at h; cases h }
    · exact { hs with
        bufferLength := by simp [Memory.wf, length]
        index := by simp only; omega
        objDisplayTicks := display, measurementTicks := measurementRate_pos
        complete := fun h => by rw [hc] at h; cases h }
    · exact { hs with
        bufferLength := by simp [Memory.wf, length]
        index := Nat.zero_le _
        objDisplayTicks := display, measurementTicks := measurementRate_pos
        holdTicks := holdTicks_pos, hold := fun _ => rfl
        complete := fun _ => ⟨rfl, rfl⟩ }
  · have display := wrap_lt (ticks := s.displayTicks) (show 0 < s.params.displayRate by omega)
    rcases running with ⟨hp, rfl⟩ | ⟨-, _, _, _, _, _, _, _, _, _, _, -, -, -, power, -, -, rfl⟩
    · exact { hs.leaveObject with displayTicks := display, pidTicks := hp }
    · exact { hs.leaveObject with displayTicks := display, pidTicks := pidRate_pos, power := power }

theorem exec_schedulerInv {i : Instr} {s t : State} (h : exec i s = .next t)
    (hs : s.SchedulerInv) : t.SchedulerInv := by
  by_cases ht : i = .tick
  · subst ht; exact execTick_schedulerInv h hs
  · by_cases hr : i = .reset
    · subst hr
      rw [exec_reset_next h]
      exact { resetRegisters_schedulerInv s with }
    · exact hs.of_kept (exec_keepsScheduler h ht hr)

end Sys2Proof.Machine

namespace Sys2Proof.Proofs

open Sys2Proof.Machine

/-- Settles O49: every operation keeps the invariant, and it reads neither queue nor trace. -/
theorem schedulerInvariantKept : Obligations.SchedulerInvariantKept := by
  intro s t hs h
  exact step_keeps (fun _ _ hu => { hu with }) (fun _ _ hu => { hu with })
    (fun _ _ _ he hu => exec_schedulerInv he hu) h hs

/-- Settles O50: RESET leaves the invariant, and the model's reset state is one that RESET leaves. -/
theorem schedulerInvariantAtReset : Obligations.SchedulerInvariantAtReset := by
  refine ⟨?_, fun s t h => ?_⟩
  · rw [reset_eq_resetRegisters]; exact resetRegisters_schedulerInv _
  · rw [exec_reset_next h]; exact { resetRegisters_schedulerInv s with }

/-- Settles O51: every value an operation writes into the accumulator is within the bound. -/
theorem accumulatorInvariantKept : Obligations.AccumulatorInvariantKept :=
  ⟨fun _ hv => (by cases hv), fun _ _ hs h =>
    step_keeps (P := State.AccumulatorBounded) (fun _ _ hu => hu) (fun _ _ hu => hu)
      (fun _ _ _ he hu => exec_accumulatorBounded he hu) h hs⟩

/-- Settles O52: no operation writes the parameters. -/
theorem parametersNeverChange : Obligations.ParametersNeverChange := by
  intro s t h
  exact step_keeps (P := fun u => u.params = s.params) (fun _ _ hu => hu) (fun _ _ hu => hu)
    (fun _ _ _ he hu => (exec_params he).trans hu) h rfl

/-- Settles O53: an operation other than RESET leaves a PID register or writes it. -/
theorem writtenRegistersStayWritten : Obligations.WrittenRegistersStayWritten := by
  intro i s t h
  refine ⟨fun hr name hs => ?_, ?_, ?_⟩
  · rcases exec_pidReg_cases h hr name with kept | written
    · rw [kept]; exact hs
    · exact written
  · rintro rfl name
    rw [exec_reset_next h]
    cases name <;> rfl
  · rintro a b c d rfl name
    cases h
    cases name <;> simp

/-- Settles O40: the branch that runs writes `act_enable`; no operation but TICK and RESET does. -/
theorem actuatorFollowsBranch : Obligations.ActuatorFollowsBranch := by
  intro i s t h
  refine ⟨?_, ?_, fun ht hr => ?_⟩
  · rintro rfl
    obtain ⟨-, actuator, -⟩ := execTick_gating h
    exact actuator
  · rintro rfl; rw [exec_reset_next h]; rfl
  · have kept := exec_keepsScheduler h ht hr
    exact ⟨by rw [kept], by rw [kept]⟩

/-- Settles O41: a TICK clears `tick_enable` in the terminal STOPPED branch and never sets it, RESET
sets it, and the other operations leave it. -/
theorem tickEnableWriters : Obligations.TickEnableWriters := by
  intro i s t h
  by_cases ht : i = .tick
  · subst ht
    obtain ⟨-, -, enable⟩ := execTick_gating h
    refine ⟨?_, ?_, ?_, ?_⟩
    · intro he hd
      rw [he, hd] at enable
      simpa using enable
    · intro he hd
      rw [he, hd] at enable
      cases enable
    · intro he _
      have ignored := h.symm.trans (execTick_disabled he)
      cases ignored; rfl
    · intro hr; cases hr
  · by_cases hr : i = .reset
    · subst hr
      rw [exec_reset_next h]
      simp
    · have kept : t.tickEnable = s.tickEnable := by rw [exec_keepsScheduler h ht hr]
      simp [kept, ht, hr]

/-- Settles O55: the other operations leave the scheduler's registers, and of them INIT alone writes
the accumulator and the previous error. -/
theorem schedulerOwnsPidAndBuffer : Obligations.SchedulerOwnsPidAndBuffer := by
  intro i s t assembled h ht hr
  have kept := exec_keepsScheduler h ht hr
  refine ⟨?_, ?_, ?_, ?_, ?_, ?_, ?_, ?_, ?_, exec_keepsPidState h assembled ht hr⟩ <;> rw [kept]

/-- Settles O46: the buffer's elements are the next free values. -/
theorem resetGivesEveryRegisterItsValue : Obligations.ResetGivesEveryRegisterItsValue :=
  ⟨rfl, fun s => ⟨freeBuffer s.freeDraws s.params.n, s.freeDraws + s.params.n,
    freeBuffer_length _ _, rfl⟩⟩

/-- Settles O47: the model's reset state is one that RESET leaves. -/
theorem resetStateRegisters : Obligations.ResetStateRegisters := by
  refine ⟨fun name => by cases name <;> rfl, ?_⟩
  rw [reset_eq_resetRegisters]
  simp

end Sys2Proof.Proofs

/-! The registers that no operation reads (10_state.md section 6). Two states that differ in these
alone are run side by side: each phase ends alike in both, and so does the operation made of them. -/

namespace Sys2Proof.Machine

/-- The registers no operation reads, and the trace (log entry 7). -/
structure Outputs where
  mode : Mode
  passFlag : Bool
  actEnable : Bool
  actPower : Int
  disp : Frame
  report : Report

def State.withOutputs (s : State) (o : Outputs) : State := { s with
  mode := o.mode, passFlag := o.passFlag, actEnable := o.actEnable, actPower := o.actPower,
  disp := o.disp, report := o.report }

/-- Two states that differ in outputs alone. -/
def State.Alike (s s' : State) : Prop := ∃ o, s' = s.withOutputs o

/-- Two answers, of a collaborator or of UPDATE, that differ in the outputs of their states alone. -/
inductive AnswerAlike {α : Type} : α × State → α × State → Prop
  | mk (v : α) (s : State) (o : Outputs) : AnswerAlike (v, s) (v, s.withOutputs o)

/-- Two computations end alike: both go on, with related results, or both stop for one reason. -/
inductive Act.Alike {α : Type} (R : α → α → Prop) : Act α → Act α → Prop
  | goesOn {a a' : α} : R a a' → Act.Alike R (.ok a) (.ok a')
  | stops (e : Stop) : Act.Alike R (.error e) (.error e)

/-- Two operations end alike: in next states that differ in outputs alone, in one fault, or in one
refusal. -/
inductive OutcomeAlike :
    Host.Outcome State Fault Refusal → Host.Outcome State Fault Refusal → Prop
  | next {t t' : State} : t.Alike t' → OutcomeAlike (.next t) (.next t')
  | fault (f : Fault) : OutcomeAlike (.fault f) (.fault f)
  | refused (r : Refusal) : OutcomeAlike (.refused r) (.refused r)

/-! ## Composing -/

theorem Act.Alike.refl {α : Type} (x : Act α) : Act.Alike Eq x x := by
  cases x with
  | error e => exact .stops e
  | ok a => exact .goesOn rfl

theorem Act.Alike.bind {α β : Type} {R : α → α → Prop} {S : β → β → Prop} {x x' : Act α}
    {f f' : α → Act β} (h : Act.Alike R x x') (hf : ∀ a a', R a a' → Act.Alike S (f a) (f' a')) :
    Act.Alike S (x >>= f) (x' >>= f') := by
  cases h with
  | goesOn hr => exact hf _ _ hr
  | stops e => exact .stops e

/-- What runs in both states on the same values is followed by computations that end alike. -/
theorem Act.Alike.same_bind {α β : Type} {S : β → β → Prop} (x : Act α) {f f' : α → Act β}
    (hf : ∀ a, Act.Alike S (f a) (f' a)) : Act.Alike S (x >>= f) (x >>= f') :=
  (Act.Alike.refl x).bind fun a _ h => h ▸ hf a

/-- Both sides take the same branch. -/
theorem alike_ite {α : Type} {R : α → α → Prop} {c : Prop} [Decidable c] {x y x' y' : α}
    (h : R x x') (h' : R y y') : R (if c then x else y) (if c then x' else y') := by
  split
  · exact h
  · exact h'

theorem finish_alike {x x' : Act State} (h : Act.Alike State.Alike x x') :
    OutcomeAlike (finish x) (finish x') := by
  cases h with
  | goesOn ht => exact .next ht
  | stops e =>
    cases e with
    | fault f => exact .fault f
    | refused r => exact .refused r

theorem OutcomeAlike.fault_iff {x x' : Host.Outcome State Fault Refusal} (h : OutcomeAlike x x')
    (f : Fault) : x = .fault f ↔ x' = .fault f := by
  cases h <;> simp

theorem OutcomeAlike.refused_iff {x x' : Host.Outcome State Fault Refusal} (h : OutcomeAlike x x')
    (r : Refusal) : x = .refused r ↔ x' = .refused r := by
  cases h <;> simp

theorem OutcomeAlike.next_of_next {x' : Host.Outcome State Fault Refusal} {t : State}
    (h : OutcomeAlike (.next t) x') : ∃ o, x' = .next (t.withOutputs o) := by
  obtain ⟨o, rfl⟩ | _ | _ := h
  exact ⟨o, rfl⟩

section
variable (s : State) (o : Outputs)

/-! ## What the phases take from outside, and UPDATE (R106, R176 to R178) -/

theorem potRead_alike : Act.Alike AnswerAlike s.potRead (s.withOutputs o).potRead := by
  unfold State.potRead
  dsimp only [State.withOutputs]
  split
  · exact alike_ite (.goesOn (.mk _ _ o)) (.stops _)
  · exact .goesOn (.mk _ _ o)

theorem rpmRead_alike : Act.Alike AnswerAlike s.rpmRead (s.withOutputs o).rpmRead := by
  unfold State.rpmRead
  dsimp only [State.withOutputs]
  split
  · exact alike_ite (.goesOn (.mk _ _ o)) (.stops _)
  · exact .goesOn (.mk _ _ o)

/-- The outputs after a condition is added to the trace. -/
def Outputs.met (o : Outputs) (c : Condition) : Outputs :=
  { o with report := { o.report with conditions := o.report.conditions ++ [c] } }

theorem distanceRead_alike : Act.Alike AnswerAlike s.distanceRead (s.withOutputs o).distanceRead := by
  unfold State.distanceRead
  dsimp only [State.withOutputs]
  split
  · exact .goesOn (.mk _ _ (o.met .sensorTimeout))
  · exact alike_ite (.goesOn (.mk _ _ o)) (.stops _)
  · split
    · exact .goesOn (.mk _ _ (o.met .sensorTimeout))
    · exact .goesOn (.mk _ _ o)

theorem pidUpdate_alike (m : NUM) :
    Act.Alike AnswerAlike (s.pidUpdate m) ((s.withOutputs o).pidUpdate m) :=
  .same_bind s.pidInputs fun x => .same_bind (orOverflow (pidCompute s.params x m)) fun r =>
    .goesOn (.mk r.out _ o)

/-! ## The STOPPED branch (R132) -/

theorem stoppedBranch_alike : s.stoppedBranch.Alike (s.withOutputs o).stoppedBranch :=
  let stopped : Outputs := { o with actEnable := false, disp := .stopped }.met .stopCondition
  alike_ite ⟨stopped, rfl⟩ ⟨stopped, rfl⟩

/-! ## The OBJECT_PRESENT branch (R133 to R138) -/

theorem completeRound_alike :
    Act.Alike State.Alike s.completeRound (s.withOutputs o).completeRound :=
  .same_bind (orOverflow (s.params.num.mean s.params.n s.measurementBuffer)) fun mean =>
    .goesOn ⟨{ o with passFlag := passCheck s.params mean }, rfl⟩

theorem takeSample_alike : Act.Alike State.Alike s.takeSample (s.withOutputs o).takeSample := by
  refine (distanceRead_alike { s with measurementTicks := 0 } o).bind ?_
  rintro _ _ ⟨d, u, o⟩
  exact .same_bind (memWrite u.measurementBuffer u.measurementIndex d) fun buffer =>
    alike_ite (completeRound_alike _ o) (.goesOn ⟨o, rfl⟩)

theorem measurementPhase_alike :
    Act.Alike State.Alike s.measurementPhase (s.withOutputs o).measurementPhase :=
  alike_ite (takeSample_alike _ o) (.goesOn ⟨o, rfl⟩)

theorem measureOrHold_alike :
    Act.Alike State.Alike s.measureOrHold (s.withOutputs o).measureOrHold :=
  alike_ite (.goesOn ⟨o, rfl⟩) (measurementPhase_alike s o)

theorem objectDisplayPhase_alike :
    Act.Alike State.Alike s.objectDisplayPhase (s.withOutputs o).objectDisplayPhase :=
  alike_ite
    (.same_bind (State.objectFrame _) fun frame => .goesOn ⟨{ o with disp := frame }, rfl⟩)
    (.goesOn ⟨o, rfl⟩)

theorem holdExpiry_alike : s.holdExpiry.Alike (s.withOutputs o).holdExpiry :=
  alike_ite ⟨o, rfl⟩ ⟨o, rfl⟩

theorem objectBranch_alike : Act.Alike State.Alike s.objectBranch (s.withOutputs o).objectBranch := by
  refine (measureOrHold_alike { s with actEnable := false } { o with actEnable := false }).bind ?_
  rintro u _ ⟨o, rfl⟩
  refine (objectDisplayPhase_alike u o).bind ?_
  rintro v _ ⟨o, rfl⟩
  exact .goesOn (holdExpiry_alike v o)

/-! ## The RUNNING branch (R139 to R141) -/

theorem controlLoop_alike : Act.Alike State.Alike s.controlLoop (s.withOutputs o).controlLoop := by
  refine (potRead_alike { s with pidTicks := 0 } o).bind ?_
  rintro _ _ ⟨p, u, o⟩
  refine .same_bind (targetRpm u.params p) fun target => ?_
  refine (rpmRead_alike { u with setpoint := .written target } o).bind ?_
  rintro _ _ ⟨r, v, o⟩
  refine (pidUpdate_alike { v with lastRpm := r } o r).bind ?_
  rintro _ _ ⟨out, w, o⟩
  exact .goesOn ⟨{ o with actPower := out }, rfl⟩

theorem pidPhase_alike : Act.Alike State.Alike s.pidPhase (s.withOutputs o).pidPhase :=
  alike_ite (controlLoop_alike _ o) (.goesOn ⟨o, rfl⟩)

theorem runDisplayPhase_alike :
    Act.Alike State.Alike s.runDisplayPhase (s.withOutputs o).runDisplayPhase :=
  alike_ite
    (.same_bind (s.readPid .setpoint) fun target =>
      .goesOn ⟨{ o with disp := .run s.lastRpm target }, rfl⟩)
    (.goesOn ⟨o, rfl⟩)

theorem runningBranch_alike :
    Act.Alike State.Alike s.runningBranch (s.withOutputs o).runningBranch := by
  refine (pidPhase_alike { s.leaveObject with actEnable := true } { o with actEnable := true }).bind ?_
  rintro u _ ⟨o, rfl⟩
  exact runDisplayPhase_alike u o

/-! ## Operations -/

theorem branch_alike (selected : Mode) :
    Act.Alike State.Alike (s.branch selected) ((s.withOutputs o).branch selected) := by
  cases selected with
  | stopped => exact .goesOn (stoppedBranch_alike s o)
  | objectPresent => exact objectBranch_alike s o
  | running => exact runningBranch_alike s o

/-- The outputs after an operation that ends with `Ok` and writes none of them. -/
def Outputs.respondOk (o : Outputs) : Outputs := { o with report := ⟨.ok, []⟩ }

theorem execTick_alike : OutcomeAlike (execTick s) (execTick (s.withOutputs o)) :=
  let selected := branchOf s.stopFlag s.objectFlag
  alike_ite
    (finish_alike
      (branch_alike { s.respondOk with mode := selected } { o.respondOk with mode := selected } selected))
    (.next ⟨o.respondOk, rfl⟩)

theorem execUpdate_alike (m : NUM) : OutcomeAlike (execUpdate m s) (execUpdate m (s.withOutputs o)) := by
  refine alike_ite (finish_alike ((pidUpdate_alike s o m).bind ?_))
    (.next ⟨{ o with report := ⟨.rejected .notOwner, []⟩ }, rfl⟩)
  rintro _ _ ⟨out, u, o⟩
  exact .goesOn ⟨{ o with report := ⟨.okOut out, []⟩ }, rfl⟩

theorem exec_alike (i : Instr) : OutcomeAlike (exec i s) (exec i (s.withOutputs o)) := by
  cases i with
  | tick => exact execTick_alike s o
  | update m => exact execUpdate_alike s o m
  | reset => exact .next ⟨⟨.stopped, false, false, 0, .blank, ⟨.ok, []⟩⟩, rfl⟩
  | init _ _ _ _ | setKp _ | setKi _ | setKd _ | setSp _ | stopSet | stopClr | objSet | objClr =>
    exact .next ⟨o.respondOk, rfl⟩

end

end Sys2Proof.Machine

namespace Sys2Proof.Proofs

open Sys2Proof.Machine

/-- Settles O56: every operation ends alike in two states that differ in outputs alone. -/
theorem outputRegistersAreReadByNoOperation : Obligations.OutputRegistersAreReadByNoOperation := by
  intro i s m p e w d r s'
  have alike : OutcomeAlike (exec i s) (exec i s') := exec_alike s ⟨m, p, e, w, d, r⟩ i
  refine ⟨alike.fault_iff, alike.refused_iff, fun t h => ?_⟩
  rw [h] at alike
  obtain ⟨o, h'⟩ := alike.next_of_next
  exact ⟨_, h', rfl⟩

end Sys2Proof.Proofs

namespace Sys2Proof.Machine

/-! ## The memory rules of R61 -/

theorem memRead_eq_ok {m : Memory} {i : Nat} {v : NUM} : memRead m i = .ok v ↔ m[i]? = some v := by
  unfold memRead
  cases m[i]? <;> simp [refuse]

theorem memRead_of_length_le {m : Memory} {i : Nat} (h : m.length ≤ i) :
    memRead m i = .error (.refused (.bufferIndexOutOfRange i)) := by
  simp [memRead, List.getElem?_eq_none h, refuse]

theorem memWrite_of_length_le {m : Memory} {i : Nat} (v : NUM) (h : m.length ≤ i) :
    memWrite m i v = .error (.refused (.bufferIndexOutOfRange i)) :=
  if_neg (Nat.not_lt.mpr h)

theorem memRead_set_self {m : Memory} {i : Nat} (v : NUM) (h : i < m.length) :
    memRead (m.set i v) i = .ok v :=
  memRead_eq_ok.mpr (List.getElem?_set_self h)

theorem memRead_set_ne (m : Memory) {i j : Nat} (v : NUM) (h : j ≠ i) :
    memRead (m.set i v) j = memRead m j := by
  simp only [memRead, List.getElem?_set_ne h.symm]

/-! ## The step at an arrival that decodes -/

theorem step_of_decodeArrival_ok {s : State} {arrival : Arrival} {rest : List Arrival} {i : Instr}
    (hp : s.pending = arrival :: rest) (hd : decodeArrival s.params.num arrival = .ok i) :
    step s = exec i { s with pending := rest } := by
  simp only [step, hp, hd]

end Sys2Proof.Machine

namespace Sys2Proof.Proofs

open Sys2Proof.Machine

/-- Settles O48: inside, the write is `List.set`, and the reads follow its equations; outside, both
accesses refuse. -/
theorem bufferReadAfterWrite : Obligations.BufferReadAfterWrite := by
  intro m i v
  constructor
  · intro inside
    exact ⟨m.set i v, memWrite_eq_ok.mpr ⟨inside, rfl⟩, List.length_set,
      memRead_set_self v inside, fun _ hj => memRead_set_ne m v hj⟩
  · intro outside
    exact ⟨memWrite_of_length_le v outside, memRead_of_length_le outside⟩

/-- Settles O7: the step takes the branch of an arrival that decodes. -/
theorem stepRunsDecodedOperation : Obligations.StepRunsDecodedOperation :=
  fun _ _ _ _ hp hd => step_of_decodeArrival_ok hp hd

end Sys2Proof.Proofs

/-! The decoder and the encoder are inverse to each other (R81 to R88), and what a step makes of an
arrival that does not decode. -/

namespace Sys2Proof

/-! ## The opcode map of R82 -/

/-- R85: the reserved values of `op`. -/
theorem formatOf_eq_none_iff {op : Opcode} :
    formatOf op = none ↔ op ∈ [0x0#4, 0x7#4, 0xD#4, 0xE#4] := by
  revert op; decide

theorem formatOf_eq_some_Z {op : Opcode} (h : op ∈ [0x8#4, 0x9#4, 0xA#4, 0xB#4, 0xC#4, 0xF#4]) :
    formatOf op = some .Z := by
  revert op; decide

theorem formatOf_eq_some_V {op : Opcode} (h : op ∈ [0x2#4, 0x3#4, 0x4#4, 0x5#4, 0x6#4]) :
    formatOf op = some .V := by
  revert op; decide

/-! ## Words -/

theorem decode_of_formatOf_eq_none {num : NumSystem} {w : OpWord} (h : formatOf w.op = none) :
    decode num w = .error .unknownOperation := by
  simp only [decode, h]

/-- R81 to R83: encoding loses nothing of an operation whose operands are values of `NUM`. -/
theorem decode_encode {num : NumSystem} {i : Instr} (h : i.wf num = true) :
    decode num (encode i) = .ok i := by
  obtain ⟨f, format, -⟩ := formatOf_opcode i
  have read : readOperands num (i.operands.map .num) = some i.operands :=
    readOperands_eq_some.mpr ⟨rfl, h⟩
  have assembled : assemble i.opcode i.operands = some i := assemble_eq_some.mpr ⟨rfl, rfl⟩
  simp only [decode, encode, format, read, assembled]

/-- R81, R82: the words that decode are the encodings of the well-formed operations. -/
theorem decode_eq_ok_iff {num : NumSystem} {w : OpWord} {i : Instr} :
    decode num w = .ok i ↔ encode i = w ∧ i.wf num = true := by
  constructor
  · intro h
    obtain ⟨vs, read, assembled⟩ := decode_eq_ok h
    obtain ⟨operands, held⟩ := readOperands_eq_some.mp read
    obtain ⟨hop, rfl⟩ := assemble_eq_some.mp assembled
    exact ⟨by rw [encode, ← hop, ← operands], held⟩
  · rintro ⟨rfl, h⟩
    exact decode_encode h

/-- R85, R88: a word with an `op` of the map that does not decode is malformed. -/
theorem decode_eq_malformed {num : NumSystem} {w : OpWord} (hop : formatOf w.op ≠ none)
    (h : ∀ i, encode i = w → ¬ i.wf num = true) : decode num w = .error .malformed := by
  cases hd : decode num w with
  | ok i =>
    obtain ⟨hw, wf⟩ := decode_eq_ok_iff.mp hd
    exact absurd wf (h i hw)
  | error r =>
    unfold decode at hd
    split at hd
    · exact absurd ‹_› hop
    · split at hd
      · rw [← hd]
      · split at hd
        · cases hd
        · rw [← hd]

/-- R85: too few or too many operands. -/
theorem decode_of_operandCount_ne {num : NumSystem} {w : OpWord} {f : Format}
    (hop : formatOf w.op = some f) (h : w.operands.length ≠ f.operandCount) :
    decode num w = .error .malformed := by
  refine decode_eq_malformed (by simp [hop]) ?_
  rintro i rfl -
  obtain ⟨f', hop', count⟩ := formatOf_opcode i
  cases hop.symm.trans hop'
  exact h (by rw [encode, List.length_map, count])

/-- R88, R113: an operand that is no value of `NUM`. -/
theorem decode_of_operand_not_held {num : NumSystem} {w : OpWord} {x : Operand}
    (hop : formatOf w.op ≠ none) (hx : x ∈ w.operands)
    (h : ∀ v, num.holds v = true → x ≠ .num v) : decode num w = .error .malformed := by
  refine decode_eq_malformed hop ?_
  rintro i rfl wf
  obtain ⟨v, hv, rfl⟩ := List.mem_map.mp hx
  exact h v (List.all_eq_true.mp wf v hv) rfl

/-! ## Lines of the tuning channel -/

theorem tuningOperation_eq_some_iff {p : String} {v : NUM} {i : Instr} :
    tuningOperation p v = some i ↔
      p = "KP" ∧ i = .setKp v ∨ p = "KI" ∧ i = .setKi v ∨
        p = "KD" ∧ i = .setKd v ∨ p = "SP" ∧ i = .setSp v := by
  constructor
  · intro h
    unfold tuningOperation at h
    split_ifs at h <;> (cases h; simp [*])
  · rintro (⟨rfl, rfl⟩ | ⟨rfl, rfl⟩ | ⟨rfl, rfl⟩ | ⟨rfl, rfl⟩) <;> rfl

theorem tuningOperation_eq_none {p : String} (v : NUM) (h : p ∉ ["KP", "KI", "KD", "SP"]) :
    tuningOperation p v = none := by
  simp only [List.mem_cons, List.not_mem_nil, or_false, not_or] at h
  obtain ⟨hkp, hki, hkd, hsp⟩ := h
  simp only [tuningOperation, if_neg hkp, if_neg hki, if_neg hkd, if_neg hsp]

/-- R87, R88: the line `SET <PARAM> <VALUE>` with a value of `NUM`. -/
theorem decodeLine_set_of_holds {num : NumSystem} {v : NUM} (p : String) (h : num.holds v = true) :
    decodeLine num [.text "SET", .text p, .value (.num v)] =
      (tuningOperation p v).elim (.error .unknownParameter) .ok := by
  have read : readOperand num (.num v) = some v := readOperand_eq_some.mpr ⟨rfl, h⟩
  simp only [decodeLine, if_true, read]
  cases tuningOperation p v <;> rfl

/-- R88: a line of another form, or with a value that `NUM` cannot represent. -/
theorem decodeLine_eq_malformed {num : NumSystem} {line : List Token}
    (h : ∀ p v, num.holds v = true → line ≠ [.text "SET", .text p, .value (.num v)]) :
    decodeLine num line = .error .malformed := by
  unfold decodeLine
  split
  · split
    · next hset =>
      split
      · rfl
      · next read =>
        obtain ⟨rfl, held⟩ := readOperand_eq_some.mp read
        exact absurd (by rw [hset]) (h _ _ held)
    · rfl
  · rfl

end Sys2Proof

namespace Sys2Proof.Machine

/-! ## Rejections -/

/-- R84: a rejected arrival leaves the queue and is reported; nothing else changes. -/
theorem step_of_decodeArrival_error {s : State} {arrival : Arrival} {rest : List Arrival}
    {r : RejectReason} (hp : s.pending = arrival :: rest)
    (hd : decodeArrival s.params.num arrival = .error r) :
    step s = .next { s with pending := rest, report := ⟨.rejected r, conditionsOf r⟩ } := by
  simp only [step, hp, hd, State.reject]

/-- R90: the assembled block refuses an UPDATE word. -/
theorem execUpdate_of_assembled {s : State} (m : NUM) (h : s.params.standalonePid = false) :
    execUpdate m s = .next (s.reject .notOwner) := by
  simp [execUpdate, h]

end Sys2Proof.Machine

namespace Sys2Proof.Proofs

open Sys2Proof.Machine

/-- Settles O2: the operands are read back one by one, and `assemble` puts the operation
together. -/
theorem decodeOfEncode : Obligations.DecodeOfEncode :=
  fun _ _ wf => decode_encode wf

/-- Settles O3: the converse of O2, from what `decode` reads and assembles. -/
theorem encodeOfDecode : Obligations.EncodeOfDecode :=
  fun _ _ _ h => decode_eq_ok_iff.mp h

/-- Settles O4: a reserved `op` has no format; a word of any other `op` decodes only as the encoding
of a well-formed operation, which has the operand count of its format and values of `NUM` only. -/
theorem reservedAndMalformedWordsRejected : Obligations.ReservedAndMalformedWordsRejected := by
  intro s w rest hp
  refine ⟨fun reserved => ?_, fun miscounted => ?_, fun named ⟨x, hx, notHeld⟩ => ?_⟩
  · exact step_of_decodeArrival_error hp
      (decode_of_formatOf_eq_none (formatOf_eq_none_iff.mpr reserved))
  · refine step_of_decodeArrival_error hp ?_
    rcases miscounted with ⟨hop, count⟩ | ⟨hop, count⟩ | ⟨hop, count⟩
    · exact decode_of_operandCount_ne (formatOf_eq_some_Z hop) count
    · exact decode_of_operandCount_ne (formatOf_eq_some_V hop) count
    · exact decode_of_operandCount_ne (f := .G) (by rw [hop]; rfl) count
  · exact step_of_decodeArrival_error hp
      (decode_of_operand_not_held (mt formatOf_eq_none_iff.mp named) hx notHeld)

/-- Settles O5: a line decodes only through `tuningOperation`, which knows the four names. -/
theorem tuningCommandsMeanOperations : Obligations.TuningCommandsMeanOperations := by
  intro num
  constructor
  · intro v held
    exact ⟨decodeLine_set_of_holds "KP" held, decodeLine_set_of_holds "KI" held,
      decodeLine_set_of_holds "KD" held, decodeLine_set_of_holds "SP" held⟩
  · intro line i h
    obtain ⟨p, v, hline, -, operation⟩ := decodeLine_eq_ok h
    exact ⟨p, v, hline, tuningOperation_eq_some_iff.mp operation⟩

/-- Settles O6: a line of another form is malformed, and one of the form has its name looked up. -/
theorem badTuningLinesRejected : Obligations.BadTuningLinesRejected := by
  intro s line rest hp
  constructor
  · intro badForm
    exact step_of_decodeArrival_error hp (decodeLine_eq_malformed badForm)
  · rintro p v held rfl unknown
    refine step_of_decodeArrival_error hp ((decodeLine_set_of_holds p held).trans ?_)
    rw [tuningOperation_eq_none v unknown]
    rfl

/-- Settles O1: each of the twelve words is the encoding of its operation; the other four values of
`op` have no format. -/
theorem opcodeMapDecodes : Obligations.OpcodeMapDecodes := by
  intro num a b c d held
  have one : [a].all num.holds = true := by simpa using held a (by simp)
  have four : [a, b, c, d].all num.holds = true := List.all_eq_true.mpr held
  exact ⟨decode_encode (i := .init a b c d) four, decode_encode (i := .setKp a) one,
    decode_encode (i := .setKi a) one, decode_encode (i := .setKd a) one,
    decode_encode (i := .setSp a) one, decode_encode (i := .update a) one,
    decode_encode (i := .tick) rfl, decode_encode (i := .stopSet) rfl,
    decode_encode (i := .stopClr) rfl, decode_encode (i := .objSet) rfl,
    decode_encode (i := .objClr) rfl, decode_encode (i := .reset) rfl,
    fun _ _ reserved => decode_of_formatOf_eq_none (formatOf_eq_none_iff.mpr reserved)⟩

/-- Settles O15: an UPDATE word on the assembled block takes the branch that rejects. -/
theorem updateFromOutsideRejected : Obligations.UpdateFromOutsideRejected :=
  fun m _ assembled => execUpdate_of_assembled m assembled

end Sys2Proof.Proofs

/-! The PID controller (40_pid_core.md): UPDATE as a word of its own, UPDATE inside a RUNNING tick, and
where either of them overflows. -/

namespace Sys2Proof.Machine

/-! ## UPDATE's shared operation (R106) -/

/-- UPDATE is done when the registers are read and the operations answer. -/
theorem pidUpdate_of_compute {s : State} {m : NUM} {x : PidInputs} {r : PidResult}
    (hx : s.pidInputs = .ok x) (hr : pidCompute s.params x m = some r) :
    s.pidUpdate m = .ok (r.out, { s with
      integralAccumulator := .written r.accumulator, previousError := .written r.previousError }) :=
  pidUpdate_eq_ok.mpr ⟨x, r, hx, hr, rfl, rfl⟩

theorem pidUpdate_eq_numOverflow_iff {s : State} {m : NUM} {x : PidInputs} (hx : s.pidInputs = .ok x) :
    s.pidUpdate m = .error (.fault .numOverflow) ↔ UpdateOverflows s.params x m := by
  rw [← pidCompute_eq_none, State.pidUpdate, hx, Act.ok_bind]
  cases pidCompute s.params x m with
  | none => simp [orOverflow, raise, Act.error_bind]
  | some r => simp [Act.ok_bind]

/-- What follows UPDATE without stopping leaves its stops. -/
theorem Act.bind_ok_eq_error_iff {α β : Type} {x : Act α} {f : α → β} {e : Stop} :
    (x >>= fun a => (.ok (f a) : Act β)) = .error e ↔ x = .error e := by
  cases x with
  | error e' => simp [Act.error_bind]
  | ok a => simp [Act.ok_bind]

/-! ## UPDATE as a word of its own -/

theorem execUpdate_of_alone {s : State} (m : NUM) (alone : s.params.standalonePid = true) :
    execUpdate m s = finish (s.pidUpdate m >>= fun x => .ok (x.2.respondOut x.1)) :=
  if_pos alone

theorem execUpdate_of_pidUpdate {s t : State} {m : NUM} {out : Int}
    (alone : s.params.standalonePid = true) (h : s.pidUpdate m = .ok (out, t)) :
    execUpdate m s = .next (t.respondOut out) := by
  rw [execUpdate_of_alone m alone, h, Act.ok_bind, finish_ok]

/-- R107, R108: what an UPDATE word that is done leaves and returns. -/
theorem execUpdate_bounded {s t : State} {m : NUM} (alone : s.params.standalonePid = true)
    (h : execUpdate m s = .next t) :
    (∃ acc, t.integralAccumulator = .written acc ∧
      -s.params.maxIntegral ≤ acc ∧ acc ≤ s.params.maxIntegral) ∧
    ∃ out, t.report.response = .okOut out ∧ s.params.OutputBounded out := by
  rcases execUpdate_next_cases h with ⟨assembled, -⟩ | ⟨-, x, r, -, -, accumulator, output, rfl⟩
  · rw [alone] at assembled; cases assembled
  · exact ⟨⟨_, rfl, accumulator⟩, _, rfl, output⟩

/-! ## The firing of the PID phase in a RUNNING tick (R140) -/

theorem pidPhase_of_fires {s : State} (h : s.params.pidRate ≤ s.pidTicks + 1) :
    s.pidPhase = s.controlLoop :=
  if_pos h

/-- The state in which the UPDATE of a RUNNING tick runs, the setpoint input converted and the rotation
sensor read (R140). -/
def updateStart (s : State) (target r : NUM) (pots rpms : List NUM) (draws : Nat) : State :=
  { runningStart s with
    pidTicks := 0, potAnswers := pots, freeDraws := draws, setpoint := .written target,
    rpmAnswers := rpms, lastRpm := r }

theorem updateStart_pidInputs {s : State} {kp ki kd acc pe : NUM} (target r : NUM)
    (pots rpms : List NUM) (draws : Nat)
    (h1 : s.kp = .written kp) (h2 : s.ki = .written ki) (h3 : s.kd = .written kd)
    (h5 : s.integralAccumulator = .written acc) (h6 : s.previousError = .written pe) :
    (updateStart s target r pots rpms draws).pidInputs = .ok ⟨kp, ki, kd, target, acc, pe⟩ :=
  pidInputs_eq_ok.mpr ⟨h1, h2, h3, rfl, h5, h6⟩

/-- R140: a PID phase that fires is one UPDATE, once the setpoint input and the rotation sensor have
answered. -/
theorem runningStart_pidPhase {s : State} {p target r : NUM} {pots rpms : List NUM}
    {draws draws' : Nat} (fires : s.params.pidRate ≤ s.pidTicks + 1) (hp : s.PotNext p pots draws)
    (ht : targetRpm s.params p = .ok target) (hr : s.RpmNext draws r rpms draws') :
    (runningStart s).pidPhase = (updateStart s target r pots rpms draws').pidUpdate r >>= fun x =>
      .ok { x.2 with actPower := x.1 } := by
  rw [pidPhase_of_fires (by exact fires)]
  exact controlLoop_of_answers hp ht hr

/-- R141 in one equation, once the setpoint is written. -/
theorem runDisplayPhase_of_setpoint {s : State} {sp : NUM} (h : s.setpoint = .written sp) :
    s.runDisplayPhase = .ok { s with
      displayTicks := if s.params.displayRate ≤ s.displayTicks + 1 then 0 else s.displayTicks + 1
      disp := if s.params.displayRate ≤ s.displayTicks + 1 then .run s.lastRpm sp else s.disp } := by
  rw [runDisplayPhase_eq_ok]
  by_cases hd : s.params.displayRate ≤ s.displayTicks + 1
  · exact .inr ⟨hd, sp, h, by simp [hd]⟩
  · exact .inl ⟨by omega, by simp [hd]⟩

/-- R107, R108: what the UPDATE of a RUNNING tick leaves, and what it gives the actuator. -/
theorem execTick_fires_bounded {s t : State} (he : s.tickEnable = true) (hs : s.stopFlag = false)
    (ho : s.objectFlag = false) (fires : s.params.pidRate ≤ s.pidTicks + 1)
    (h : execTick s = .next t) :
    (∃ acc, t.integralAccumulator = .written acc ∧
      -s.params.maxIntegral ≤ acc ∧ acc ≤ s.params.maxIntegral) ∧
    s.params.OutputBounded t.actPower := by
  rw [execTick_running he hs ho, finish_eq_next, runningBranch_eq_ok] at h
  obtain ⟨u, hu, hv⟩ := h
  obtain ⟨frame, rfl⟩ := runDisplayPhase_ok_fields hv
  rw [pidPhase_of_fires (by exact fires)] at hu
  obtain ⟨_, _, _, _, _, _, _, acc, _, _, -, -, accumulator, -, output, -, rfl⟩ :=
    controlLoop_ok_fields hu
  exact ⟨⟨acc, rfl, accumulator⟩, output⟩

/-! ## Where the exact numbers do not overflow (R113) -/

/-- The computation does not end in `NumOverflow`. -/
def Act.NoOverflow {α : Type} (x : Act α) : Prop := x ≠ .error (.fault .numOverflow)

theorem noOverflow_ok {α : Type} (a : α) : Act.NoOverflow (.ok a : Act α) := by
  simp [Act.NoOverflow]

theorem noOverflow_refuse {α : Type} (r : Refusal) : Act.NoOverflow (refuse r : Act α) := by
  simp [Act.NoOverflow, refuse]

theorem Act.NoOverflow.bind {α β : Type} {x : Act α} {f : α → Act β} (hx : x.NoOverflow)
    (hf : ∀ a, x = .ok a → (f a).NoOverflow) : (x >>= f).NoOverflow := by
  cases x with
  | error e => simpa [Act.NoOverflow, Act.error_bind] using hx
  | ok a => exact hf a rfl

theorem noOverflow_ite {α : Type} {c : Prop} [Decidable c] {x y : Act α} (hx : x.NoOverflow)
    (hy : y.NoOverflow) : (if c then x else y).NoOverflow := by
  split
  · exact hx
  · exact hy

theorem orOverflow_noOverflow {α : Type} {x : Option α} {v : α} (h : x = some v) :
    (orOverflow x).NoOverflow := by
  rw [h]; exact noOverflow_ok v

theorem finish_ne_numOverflow {x : Act State} (h : x.NoOverflow) : finish x ≠ .fault .numOverflow :=
  mt finish_eq_fault.mp h

theorem memWrite_noOverflow (m : Memory) (i : Nat) (v : NUM) : (memWrite m i v).NoOverflow :=
  noOverflow_ite (noOverflow_ok _) (noOverflow_refuse _)

/-- R20: the measurement and hold phases write no parameter. -/
theorem measureOrHold_ok_params {s t : State} (h : s.measureOrHold = .ok t) : t.params = s.params := by
  rcases measureOrHold_eq_ok.mp h with ⟨-, rfl⟩ | ⟨-, h⟩
  · rfl
  · rcases measurementPhase_eq_ok.mp h with ⟨-, rfl⟩ | ⟨-, h⟩
    · rfl
    · obtain ⟨_, _, _, -, -, ⟨-, rfl⟩ | ⟨-, h⟩⟩ := takeSample_eq_ok.mp h
      · rfl
      · obtain ⟨_, -, rfl⟩ := completeRound_eq_ok.mp h
        rfl

section
variable (s : State)

/-! What an operation reads overflows in no number system. -/

theorem readPid_noOverflow (name : PidName) : (s.readPid name).NoOverflow := by
  cases h : s.pidReg name with
  | written v => rw [readPid_eq_ok.mpr h]; exact noOverflow_ok v
  | unwritten => rw [readPid_unwritten h]; simp [Act.NoOverflow]

theorem pidInputs_noOverflow : s.pidInputs.NoOverflow :=
  (readPid_noOverflow s _).bind fun _ _ => (readPid_noOverflow s _).bind fun _ _ =>
  (readPid_noOverflow s _).bind fun _ _ => (readPid_noOverflow s _).bind fun _ _ =>
  (readPid_noOverflow s _).bind fun _ _ => (readPid_noOverflow s _).bind fun _ _ => noOverflow_ok _

theorem potRead_noOverflow : s.potRead.NoOverflow := by
  unfold State.potRead
  split
  · exact noOverflow_ite (noOverflow_ok _) (noOverflow_refuse _)
  · exact noOverflow_ok _

theorem rpmRead_noOverflow : s.rpmRead.NoOverflow := by
  unfold State.rpmRead
  split
  · exact noOverflow_ite (noOverflow_ok _) (noOverflow_refuse _)
  · exact noOverflow_ok _

theorem distanceRead_noOverflow : s.distanceRead.NoOverflow := by
  unfold State.distanceRead
  split
  · exact noOverflow_ok _
  · exact noOverflow_ite (noOverflow_ok _) (noOverflow_refuse _)
  · split <;> exact noOverflow_ok _

theorem runDisplayPhase_noOverflow : s.runDisplayPhase.NoOverflow :=
  noOverflow_ite ((readPid_noOverflow s .setpoint).bind fun _ _ => noOverflow_ok _) (noOverflow_ok _)

end

section
variable {s : State} (hnum : s.params.num = .exact)
include hnum

theorem mean_noOverflow (n : Nat) (buffer : Memory) :
    (orOverflow (s.params.num.mean n buffer)).NoOverflow :=
  orOverflow_noOverflow (by rw [hnum, NumSystem.mean_exact])

theorem completeRound_noOverflow : s.completeRound.NoOverflow :=
  (mean_noOverflow hnum _ _).bind fun _ _ => noOverflow_ok _

theorem takeSample_noOverflow : s.takeSample.NoOverflow := by
  refine (distanceRead_noOverflow _).bind ?_
  rintro ⟨d, u⟩ hu
  obtain ⟨_, _, _, -, -, rfl⟩ := distanceRead_eq_ok.mp hu
  exact (memWrite_noOverflow _ _ _).bind fun buffer _ =>
    noOverflow_ite (completeRound_noOverflow (by exact hnum)) (noOverflow_ok _)

theorem measureOrHold_noOverflow : s.measureOrHold.NoOverflow :=
  noOverflow_ite (noOverflow_ok _)
    (noOverflow_ite (takeSample_noOverflow (by exact hnum)) (noOverflow_ok _))

theorem objectDisplayPhase_noOverflow : s.objectDisplayPhase.NoOverflow :=
  have frame : Act.NoOverflow
      ({ s with objDisplayTicks := s.objDisplayTicks + 1 } : State).objectFrame :=
    noOverflow_ite ((mean_noOverflow hnum _ _).bind fun _ _ => noOverflow_ok _) (noOverflow_ok _)
  noOverflow_ite (frame.bind fun _ _ => noOverflow_ok _) (noOverflow_ok _)

theorem pidUpdate_noOverflow (m : NUM) : (s.pidUpdate m).NoOverflow :=
  (pidInputs_noOverflow s).bind fun _ _ =>
    (orOverflow_noOverflow (pidCompute_exact hnum _ _)).bind fun _ _ => noOverflow_ok _

theorem controlLoop_noOverflow : s.controlLoop.NoOverflow := by
  refine (potRead_noOverflow _).bind ?_
  rintro ⟨p, u⟩ hu
  obtain ⟨_, _, -, rfl⟩ := potRead_eq_ok.mp hu
  have target : (targetRpm s.params p).NoOverflow := by
    rw [targetRpm_exact hnum]; exact noOverflow_ok _
  refine target.bind fun target _ => (rpmRead_noOverflow _).bind ?_
  rintro ⟨r, v⟩ hv
  obtain ⟨_, _, -, rfl⟩ := rpmRead_eq_ok.mp hv
  exact (pidUpdate_noOverflow (by exact hnum) r).bind fun _ _ => noOverflow_ok _

theorem objectBranch_noOverflow : s.objectBranch.NoOverflow :=
  (measureOrHold_noOverflow (by exact hnum)).bind fun u hu =>
    have kept := measureOrHold_ok_params hu
    (objectDisplayPhase_noOverflow (by rw [kept]; exact hnum)).bind fun _ _ => noOverflow_ok _

theorem runningBranch_noOverflow : s.runningBranch.NoOverflow :=
  have phase : ({ s.leaveObject with actEnable := true } : State).pidPhase.NoOverflow :=
    noOverflow_ite (controlLoop_noOverflow (by exact hnum)) (noOverflow_ok _)
  phase.bind fun u _ => runDisplayPhase_noOverflow u

theorem execTick_ne_numOverflow : execTick s ≠ .fault .numOverflow := by
  cases he : s.tickEnable with
  | false => rw [execTick_disabled he]; simp
  | true =>
    cases hs : s.stopFlag with
    | true => rw [execTick_stopped he hs]; simp
    | false =>
      cases ho : s.objectFlag with
      | true =>
        rw [execTick_object he hs ho]
        exact finish_ne_numOverflow (objectBranch_noOverflow (by exact hnum))
      | false =>
        rw [execTick_running he hs ho]
        exact finish_ne_numOverflow (runningBranch_noOverflow (by exact hnum))

theorem execUpdate_ne_numOverflow (m : NUM) : execUpdate m s ≠ .fault .numOverflow := by
  cases alone : s.params.standalonePid with
  | false => rw [execUpdate_of_assembled m alone]; simp
  | true =>
    rw [execUpdate_of_alone m alone]
    exact finish_ne_numOverflow ((pidUpdate_noOverflow hnum m).bind fun _ _ => noOverflow_ok _)

theorem exec_ne_numOverflow (i : Instr) : exec i s ≠ .fault .numOverflow := by
  cases i with
  | tick => exact execTick_ne_numOverflow hnum
  | update m => exact execUpdate_ne_numOverflow hnum m
  | init _ _ _ _ | setKp _ | setKi _ | setKd _ | setSp _ | stopSet | stopClr | objSet | objClr
  | reset => exact fun h => by cases h

end

/-! ## Where an UPDATE overflows (R113) -/

theorem execUpdate_eq_numOverflow_iff {s : State} {m : NUM} {x : PidInputs}
    (alone : s.params.standalonePid = true) (hx : s.pidInputs = .ok x) :
    execUpdate m s = .fault .numOverflow ↔ UpdateOverflows s.params x m := by
  rw [execUpdate_of_alone m alone, finish_eq_fault, Act.bind_ok_eq_error_iff,
    pidUpdate_eq_numOverflow_iff hx]

/-- A RUNNING tick overflows where its PID phase does: the display phase does no arithmetic. -/
theorem execTick_running_eq_numOverflow_iff {s : State} (he : s.tickEnable = true)
    (hs : s.stopFlag = false) (ho : s.objectFlag = false) :
    execTick s = .fault .numOverflow ↔ (runningStart s).pidPhase = .error (.fault .numOverflow) := by
  rw [execTick_running he hs ho, finish_eq_fault]
  change ((runningStart s).pidPhase >>= State.runDisplayPhase) = _ ↔ _
  cases (runningStart s).pidPhase with
  | error e => simp [Act.error_bind]
  | ok u =>
    rw [Act.ok_bind]
    exact iff_of_false (runDisplayPhase_noOverflow u) (noOverflow_ok u)

/-- R113 inside a RUNNING tick whose setpoint conversion answers (R140). -/
theorem execTick_eq_numOverflow_iff {s : State} {x : PidInputs} {p target r : NUM}
    {pots rpms : List NUM} {draws draws' : Nat} (he : s.tickEnable = true) (hs : s.stopFlag = false)
    (ho : s.objectFlag = false) (fires : s.params.pidRate ≤ s.pidTicks + 1)
    (hp : s.PotNext p pots draws) (ht : targetRpm s.params p = .ok target)
    (hr : s.RpmNext draws r rpms draws')
    (hx : (updateStart s target r pots rpms draws').pidInputs = .ok x) :
    execTick s = .fault .numOverflow ↔ UpdateOverflows s.params x r := by
  rw [execTick_running_eq_numOverflow_iff he hs ho, runningStart_pidPhase fires hp ht hr,
    Act.bind_ok_eq_error_iff, pidUpdate_eq_numOverflow_iff hx]
  rfl

/-! ## UPDATE words with `m = setpoint` (R109) -/

/-- A controller that stands alone, over exact numbers, its registers holding `x` with the accumulator
in range (R28). -/
structure Standalone (s : State) (x : PidInputs) : Prop where
  alone : s.params.standalonePid = true
  num : s.params.num = .exact
  inputs : s.pidInputs = .ok x
  lower : -s.params.maxIntegral ≤ x.accumulator
  upper : x.accumulator ≤ s.params.maxIntegral

/-- `s` after an UPDATE word with no error, the accumulator being `acc`. -/
def afterZeroError (s : State) (acc : NUM) (rest : List Arrival) (out : Int) : State := { s with
  integralAccumulator := .written acc, previousError := .written 0, pending := rest,
  report := ⟨.okOut out, []⟩ }

theorem Standalone.afterZeroError {s : State} {x : PidInputs} (h : Standalone s x)
    (rest : List Arrival) (out : Int) :
    Standalone (afterZeroError s x.accumulator rest out) { x with previousError := 0 } := by
  obtain ⟨hkp, hki, hkd, hsp, -, -⟩ := pidInputs_eq_ok.mp h.inputs
  exact { h with inputs := pidInputs_eq_ok.mpr ⟨hkp, hki, hkd, hsp, rfl, rfl⟩ }

/-- R109: what UPDATE answers once the previous error is zero too. -/
def steadyOutput (params : Params) (ki acc : NUM) : Int :=
  ⌊max params.minOutput (min params.maxOutput (ki * acc))⌋

/-- An UPDATE word at the head of the queue is an UPDATE. -/
theorem step_update_word {s : State} {m : NUM} {rest : List Arrival}
    (held : s.params.num.holds m = true) (hp : s.pending = .word ⟨0x6#4, [.num m]⟩ :: rest) :
    step s = exec (.update m) { s with pending := rest } := by
  have wf : (Instr.update m).wf s.params.num = true := by simpa [Instr.wf, Instr.operands] using held
  exact step_of_decodeArrival_ok hp (decode_encode wf)

/-- R106 with `m = setpoint`: the error is 0, and an accumulator in range stays. -/
theorem step_update_at_setpoint {s : State} {x : PidInputs} {rest : List Arrival}
    (h : Standalone s x) (hp : s.pending = .word ⟨0x6#4, [.num x.setpoint]⟩ :: rest) :
    step s = .next (afterZeroError s x.accumulator rest ⌊max s.params.minOutput
      (min s.params.maxOutput (x.ki * x.accumulator - x.kd * x.previousError))⌋) := by
  have update := pidUpdate_of_compute (s := { s with pending := rest }) h.inputs
    (pidCompute_exact h.num x x.setpoint)
  have stays : max (-s.params.maxIntegral) (min s.params.maxIntegral x.accumulator) =
      x.accumulator := by
    rw [min_eq_right h.upper, max_eq_right h.lower]
  simp only [sub_self, add_zero, mul_zero, zero_add, zero_sub, mul_neg, ← sub_eq_add_neg, stays]
    at update
  rw [step_update_word (by rw [h.num]; rfl) hp]
  exact execUpdate_of_pidUpdate (s := { s with pending := rest }) h.alone update

/-- R109: once the previous error is 0, every further UPDATE word leaves the same registers and
answers the same output. -/
theorem run_updates_at_setpoint {s : State} {x : PidInputs} {rest : List Arrival} (k : Nat)
    (h : Standalone s { x with previousError := 0 })
    (hp : s.pending = List.replicate (k + 1) (.word ⟨0x6#4, [.num x.setpoint]⟩) ++ rest) :
    core.run (k + 1) s =
      .next (afterZeroError s x.accumulator rest (steadyOutput s.params x.ki x.accumulator)) := by
  have first := step_update_at_setpoint h hp
  simp only [mul_zero, sub_zero] at first
  rw [core_run_succ_of_next core first]
  cases k with
  | zero => rfl
  | succ k => exact run_updates_at_setpoint k (h.afterZeroError _ _) rfl

/-- R109: a product below 1 is cut to 0, if the bounds are 0 and at least 1. -/
theorem floor_limited_eq_zero_iff {x hi : NUM} (h : 1 ≤ hi) : ⌊max 0 (min hi x)⌋ = 0 ↔ x < 1 := by
  rw [Int.floor_eq_zero_iff, Set.mem_Ico, max_lt_iff, min_lt_iff]
  constructor
  · rintro ⟨-, -, below | below⟩
    · exact absurd below (not_lt.mpr h)
    · exact below
  · exact fun below => ⟨le_max_left _ _, zero_lt_one, .inr below⟩

/-! ## A state on which every UPDATE moves the accumulator (R110) -/

/-- The test profile with the controller built alone (R90). -/
def standaloneParams : Params :=
  ⟨{ Config.testProfile with standalonePid := true }, Config.testProfile_legal⟩

/-- A controller with gains 0 and setpoint 1: each `UPDATE 0` adds an error of 1. -/
def integrating (acc pe : NUM) : State := { State.reset with
  params := standaloneParams, kp := .written 0, ki := .written 0, kd := .written 0,
  setpoint := .written 1, integralAccumulator := .written acc, previousError := .written pe }

end Sys2Proof.Machine

namespace Sys2Proof.Proofs

open Sys2Proof.Machine

/-- Settles O9: `execInit` is this one record update, and the encoder keeps the operands' order. -/
theorem initWritesAllSixRegisters : Obligations.InitWritesAllSixRegisters :=
  fun _ _ _ _ _ => ⟨rfl, rfl⟩

/-- Settles O10: each of the three is one record update, and its name in the tuning channel is one of
the four that `tuningOperation` knows. -/
theorem gainWritesChangeOneRegister : Obligations.GainWritesChangeOneRegister :=
  fun _ _ => ⟨⟨rfl, rfl, rfl⟩, ⟨rfl, rfl, rfl⟩, rfl, rfl, rfl⟩

/-- Settles O11: the record update of SET_SP overwrites itself. -/
theorem setSpOverwritesSetpoint : Obligations.SetSpOverwritesSetpoint :=
  fun _ _ => ⟨rfl, rfl, rfl, rfl⟩

/-- Settles O13: UPDATE as a word is `pidUpdate`, which `pidUpdate_exact` evaluates over exact numbers
and which stops at the first unwritten register it reads. -/
theorem updateComputesPidOutput : Obligations.UpdateComputesPidOutput := by
  intro m s alone
  constructor
  · intro kp ki kd sp acc pe hnum h1 h2 h3 h4 h5 h6
    exact execUpdate_of_pidUpdate alone (pidUpdate_exact hnum h1 h2 h3 h4 h5 h6)
  · intro name unwritten
    rw [exec, execUpdate_of_alone m alone, pidUpdate_unwritten unwritten]
    rfl

/-- Settles O14: the eight answers determine `pidCompute`. -/
theorem updateEvaluatesInStatedOrder : Obligations.UpdateEvaluatesInStatedOrder := by
  intro m kp ki kd sp acc pe error sum derivative pTerm iTerm dTerm pSum rawOutput s alone
    h1 h2 h3 h4 h5 h6 num accumulator e1 e2 e3 e4 e5 e6 e7 e8
  have inputs : s.pidInputs = .ok ⟨kp, ki, kd, sp, acc, pe⟩ :=
    pidInputs_eq_ok.mpr ⟨h1, h2, h3, h4, h5, h6⟩
  exact execUpdate_of_pidUpdate alone
    (pidUpdate_of_compute inputs (pidCompute_of_answers e1 e2 e3 e4 e5 e6 e7 e8))

/-- Settles O32: the two answers of the conversion bring the tick to its UPDATE, the eight of UPDATE
through it, and the display phase finds the setpoint written. -/
theorem runningTickFiresPidPhaseInAnyNumbers : Obligations.RunningTickFiresPidPhaseInAnyNumbers := by
  intro s kp ki kd acc pe p r pots rpms draws draws' product target error sum derivative pTerm iTerm
    dTerm pSum rawOutput he hs ho fires h1 h2 h3 h5 h6 hp hr num accumulator ep et e1 e2 e3 e4 e5 e6
    e7 e8
  have conversion : targetRpm s.params p = .ok target := targetRpm_eq_ok.mpr ⟨product, ep, et⟩
  have inputs := updateStart_pidInputs target r pots rpms draws' h1 h2 h3 h5 h6
  have update := pidUpdate_of_compute inputs (pidCompute_of_answers e1 e2 e3 e4 e5 e6 e7 e8)
  have phase := runningStart_pidPhase fires hp conversion hr
  rw [update, Act.ok_bind] at phase
  exact execTick_running_of_phases he hs ho phase (runDisplayPhase_of_setpoint rfl)

/-- Settles O16: the clamp of R106, reached through the word and through the PID phase. -/
theorem accumulatorBoundedAfterUpdate : Obligations.AccumulatorBoundedAfterUpdate := by
  rintro s t (⟨m, alone, h⟩ | ⟨he, hs, ho, fires, h⟩)
  · exact (execUpdate_bounded alone h).1
  · exact (execTick_fires_bounded he hs ho fires h).1

/-- Settles O17: the limiter of R106, reached through the word and through the PID phase. -/
theorem outputBoundedAfterUpdate : Obligations.OutputBoundedAfterUpdate :=
  fun _ _ => ⟨fun _ alone h => (execUpdate_bounded alone h).2,
    fun he hs ho fires h => (execTick_fires_bounded he hs ho fires h).2⟩

/-- Settles O18: the first word brings the previous error to 0, and from there every word answers
alike. -/
theorem zeroErrorSteadyState : Obligations.ZeroErrorSteadyState := by
  intro s kp ki kd sp acc pe k rest alone hnum h1 h2 h3 h4 h5 h6 lo hi hp
  have start : Standalone s ⟨kp, ki, kd, sp, acc, pe⟩ :=
    ⟨alone, hnum, pidInputs_eq_ok.mpr ⟨h1, h2, h3, h4, h5, h6⟩, lo, hi⟩
  have first := step_update_at_setpoint start hp
  refine ⟨⟨_, first, rfl⟩, _, steadyOutput s.params ki acc, (core_run_succ_of_next core first).trans
    (run_updates_at_setpoint k (start.afterZeroError _ _) rfl), rfl, rfl, rfl, rfl, rfl, ?_⟩
  intro hmin hmax
  rw [steadyOutput, hmin]
  exact floor_limited_eq_zero_iff hmax

/-- Settles O19: no phase of any operation overflows over exact numbers; over others an UPDATE does
exactly where `pidCompute` has no value. -/
theorem overflowOnlyInFiniteNumbers : Obligations.OverflowOnlyInFiniteNumbers := by
  refine ⟨fun i s hnum => exec_ne_numOverflow hnum i, fun s kp ki kd acc pe h1 h2 h3 h5 h6 => ?_⟩
  constructor
  · intro m sp alone h4
    exact execUpdate_eq_numOverflow_iff alone (pidInputs_eq_ok.mpr ⟨h1, h2, h3, h4, h5, h6⟩)
  · intro p r product target pots rpms draws draws' he hs ho fires hp hr ep et
    have conversion : targetRpm s.params p = .ok target := targetRpm_eq_ok.mpr ⟨product, ep, et⟩
    exact execTick_eq_numOverflow_iff he hs ho fires hp conversion hr
      (updateStart_pidInputs target r pots rpms draws' h1 h2 h3 h5 h6)

/-- Settles O12: a record update written twice is written once; UPDATE takes the accumulator of
`integrating 0 0` from 0 to 1 to 2. -/
theorem registerWritesAreIdempotent : Obligations.RegisterWritesAreIdempotent := by
  constructor
  · rintro i s (⟨v, rfl | rfl | rfl | rfl⟩ | ⟨a, b, c, d, rfl⟩) <;> exact ⟨_, rfl, rfl⟩
  · refine ⟨0, integrating 0 0, _, _,
      execUpdate_of_pidUpdate rfl (pidUpdate_exact rfl rfl rfl rfl rfl rfl rfl),
      execUpdate_of_pidUpdate rfl (pidUpdate_exact rfl rfl rfl rfl rfl rfl rfl), ?_, ?_, ?_⟩
    all_goals decide +kernel

end Sys2Proof.Proofs

/-! The scheduler's TICK over exact numbers and by branch (41_scheduler.md): each kind of tick as one
next state, what every tick keeps, and runs of ticks through a measurement round and its hold. -/

namespace Sys2Proof.Machine

/-! ## STOPPED ticks (R132) -/

theorem stoppedBranch_of_enabled {s : State} (he : s.tickEnable = true) :
    s.stoppedBranch = { s.leaveObject with
      actEnable := false, disp := .stopped, tickEnable := !s.params.stopTerminal,
      report := ⟨s.report.response, s.report.conditions ++ [.stopCondition]⟩ } := by
  unfold State.stoppedBranch
  cases terminal : s.params.stopTerminal
  · simp [terminal, he, State.met, State.leaveObject]
  · simp [terminal, State.met]

/-! ## OBJECT_PRESENT ticks that leave the round open (R134) -/

theorem measureOrHold_between_samples {s : State} (hc : s.measurementComplete = false)
    (hr : s.measurementTicks + 1 < s.params.measurementRate) :
    s.measureOrHold = .ok { s with measurementTicks := s.measurementTicks + 1 } :=
  measureOrHold_eq_ok.mpr (.inr ⟨hc, measurementPhase_eq_ok.mpr (.inl ⟨hr, rfl⟩)⟩)

theorem measureOrHold_of_sample {s : State} {a : DistanceAnswer} {rest : List DistanceAnswer}
    {draws : Nat} (hc : s.measurementComplete = false)
    (hr : s.params.measurementRate ≤ s.measurementTicks + 1)
    (hi : s.measurementIndex < s.measurementBuffer.length)
    (hn : s.measurementIndex + 1 ≠ s.params.n) (hd : s.DistanceNext a rest draws) :
    s.measureOrHold = .ok { s with
      measurementTicks := 0, distanceAnswers := rest, freeDraws := draws,
      report := ⟨s.report.response, s.report.conditions ++ timeoutConditions a⟩,
      measurementBuffer := s.measurementBuffer.set s.measurementIndex (distanceValue s.params a),
      measurementIndex := s.measurementIndex + 1 } := by
  have sample := takeSample_eq_ok.mpr ⟨a, rest, draws, hd, hi, .inl ⟨hn, rfl⟩⟩
  exact measureOrHold_eq_ok.mpr (.inr ⟨hc, measurementPhase_eq_ok.mpr (.inr ⟨hr, sample⟩)⟩)

/-- R133, R137, R138: while the round is open, the progress is shown and no hold expires. -/
theorem execTick_object_of_open_round {s u : State} (he : s.tickEnable = true)
    (hs : s.stopFlag = false) (ho : s.objectFlag = true) (hu : (objectStart s).measureOrHold = .ok u)
    (hc : u.measurementComplete = false) :
    execTick s = .next { u with
      objDisplayTicks :=
        if u.params.displayRate / 2 ≤ u.objDisplayTicks + 1 then 0 else u.objDisplayTicks + 1,
      disp := if u.params.displayRate / 2 ≤ u.objDisplayTicks + 1
        then .progress (u.measurementIndex * (100 / u.params.n)) else u.disp } := by
  have tick := execTick_object_of_phases he hs ho hu
    (objectDisplayPhase_of_frame (objectFrame_progress hc))
  rw [tick, holdExpiry_kept (.inl (by exact hc))]

theorem execTick_between_samples {s : State} (he : s.tickEnable = true) (hs : s.stopFlag = false)
    (ho : s.objectFlag = true) (hc : s.measurementComplete = false)
    (hr : s.measurementTicks + 1 < s.params.measurementRate) :
    execTick s = .next { s with
      mode := .objectPresent, actEnable := false, measurementTicks := s.measurementTicks + 1,
      objDisplayTicks :=
        if s.params.displayRate / 2 ≤ s.objDisplayTicks + 1 then 0 else s.objDisplayTicks + 1,
      disp := if s.params.displayRate / 2 ≤ s.objDisplayTicks + 1
        then .progress (s.measurementIndex * (100 / s.params.n)) else s.disp,
      report := ⟨.ok, []⟩ } :=
  execTick_object_of_open_round he hs ho
    (measureOrHold_between_samples (s := objectStart s) hc hr) hc

theorem execTick_takes_sample {s : State} {a : DistanceAnswer} {rest : List DistanceAnswer}
    {draws : Nat} (he : s.tickEnable = true) (hs : s.stopFlag = false) (ho : s.objectFlag = true)
    (hc : s.measurementComplete = false) (hr : s.params.measurementRate ≤ s.measurementTicks + 1)
    (hi : s.measurementIndex < s.measurementBuffer.length)
    (hn : s.measurementIndex + 1 ≠ s.params.n) (hd : s.DistanceNext a rest draws) :
    execTick s = .next { s with
      mode := .objectPresent, actEnable := false, measurementTicks := 0,
      distanceAnswers := rest, freeDraws := draws,
      measurementBuffer := s.measurementBuffer.set s.measurementIndex (distanceValue s.params a),
      measurementIndex := s.measurementIndex + 1,
      objDisplayTicks :=
        if s.params.displayRate / 2 ≤ s.objDisplayTicks + 1 then 0 else s.objDisplayTicks + 1,
      disp := if s.params.displayRate / 2 ≤ s.objDisplayTicks + 1
        then .progress ((s.measurementIndex + 1) * (100 / s.params.n)) else s.disp,
      report := ⟨.ok, timeoutConditions a⟩ } :=
  execTick_object_of_open_round he hs ho
    (measureOrHold_of_sample (s := objectStart s) hc hr hi hn hd) hc

/-! ## The ticks of a hold over exact numbers (R136 to R138) -/

/-- An OBJECT_PRESENT tick that finds a completed round, over exact numbers. -/
structure State.Holding (s : State) : Prop where
  exact : s.params.num = .exact
  enabled : s.tickEnable = true
  stop : s.stopFlag = false
  object : s.objectFlag = true
  complete : s.measurementComplete = true

theorem State.Holding.tick {s : State} (h : s.Holding) :
    execTick s = .next { s with
      mode := .objectPresent, actEnable := false,
      holdTicks := if s.params.holdTicks ≤ s.holdTicks + 1 then 0 else s.holdTicks + 1,
      measurementComplete := !decide (s.params.holdTicks ≤ s.holdTicks + 1),
      objectFlag := !decide (s.params.holdTicks ≤ s.holdTicks + 1),
      objDisplayTicks :=
        if s.params.displayRate / 2 ≤ s.objDisplayTicks + 1 then 0 else s.objDisplayTicks + 1,
      disp := if s.params.displayRate / 2 ≤ s.objDisplayTicks + 1
        then .result (s.measurementBuffer.sum / (s.params.n : NUM)) else s.disp,
      report := ⟨.ok, []⟩ } := by
  have frame := objectFrame_result (s := heldState s) h.complete h.exact
  exact execTick_hold_of_display h.enabled h.stop h.object h.complete
    (objectDisplayPhase_of_frame frame)

/-! ## RUNNING ticks (R139 to R141) -/

theorem pidPhase_of_silent {s : State} (h : s.pidTicks + 1 < s.params.pidRate) :
    s.pidPhase = .ok { s with pidTicks := s.pidTicks + 1 } :=
  pidPhase_eq_ok.mpr (.inl ⟨h, rfl⟩)

theorem runDisplayPhase_of_silent {s : State} (h : s.displayTicks + 1 < s.params.displayRate) :
    s.runDisplayPhase = .ok { s with displayTicks := s.displayTicks + 1 } :=
  runDisplayPhase_eq_ok.mpr (.inl ⟨h, rfl⟩)

theorem runDisplayPhase_of_fires {s : State} {sp : NUM}
    (h : s.params.displayRate ≤ s.displayTicks + 1) (hsp : s.setpoint = .written sp) :
    s.runDisplayPhase = .ok { s with displayTicks := 0, disp := .run s.lastRpm sp } :=
  runDisplayPhase_eq_ok.mpr (.inr ⟨h, sp, hsp, rfl⟩)

theorem runDisplayPhase_unwritten {s : State} (h : s.params.displayRate ≤ s.displayTicks + 1)
    (hsp : s.setpoint = .unwritten) :
    s.runDisplayPhase = .error (.fault (.useBeforeInit .setpoint)) := by
  have read : ({ s with displayTicks := s.displayTicks + 1 } : State).readPid .setpoint =
      .error (.fault (.useBeforeInit .setpoint)) := readPid_unwritten hsp
  rw [State.runDisplayPhase, if_pos (by exact h), read, Act.error_bind]

/-- A fault in either phase abandons the RUNNING tick (R201). -/
theorem execTick_running_fault {s : State} {f : Fault} (he : s.tickEnable = true)
    (hs : s.stopFlag = false) (ho : s.objectFlag = false)
    (h : ((runningStart s).pidPhase >>= State.runDisplayPhase) = .error (.fault f)) :
    execTick s = .fault f := by
  rw [execTick_running he hs ho, finish_eq_fault]
  exact h

/-- The list of R106 without `setpoint`, which the PID phase has just written. -/
theorem updateStart_first_unwritten {s : State} {name : PidName} (target r : NUM)
    (pots rpms : List NUM) (draws : Nat)
    (h : [PidName.kp, .ki, .kd, .integralAccumulator, .previousError].find?
      (fun n => decide (s.pidReg n = .unwritten)) = some name) :
    [PidName.kp, .ki, .kd, .setpoint, .integralAccumulator, .previousError].find?
      (fun n => decide ((updateStart s target r pots rpms draws).pidReg n = .unwritten)) =
        some name := by
  have setpoint : (updateStart s target r pots rpms draws).pidReg .setpoint = .written target := rfl
  have others : ∀ n, n ≠ .setpoint →
      (updateStart s target r pots rpms draws).pidReg n = s.pidReg n := by
    intro n hn
    cases n with
    | setpoint => exact absurd rfl hn
    | kp | ki | kd | integralAccumulator | previousError => rfl
  simp only [List.find?_cons, setpoint, others, ne_eq, reduceCtorEq, not_false_eq_true,
    decide_false] at h ⊢
  exact h

/-! ## What every tick keeps (R143 to R148) -/

theorem execTick_mode {s t : State} (he : s.tickEnable = true) (h : execTick s = .next t) :
    t.mode = branchOf s.stopFlag s.objectFlag := by
  rcases execTick_next_cases h with ⟨hd, -⟩ | ⟨-, hs, rfl⟩ |
    ⟨-, hs, ho, _, _, -, ⟨-, -, rfl⟩ | ⟨-, -, rfl⟩ | ⟨-, -, rfl⟩ |
      ⟨-, -, _, _, _, -, -, ⟨-, rfl⟩ | ⟨-, _, -, rfl⟩⟩⟩ |
    ⟨-, hs, ho, _, _, -, ⟨-, rfl⟩ | ⟨-, _, _, _, _, _, _, _, _, _, _, -, -, -, -, -, -, rfl⟩⟩
  case inl => rw [he] at hd; cases hd
  all_goals simp [branchOf, *]

/-- R148: a TICK with a flag set leaves what the RUNNING branch goes on from. -/
theorem execTick_keepsPid {s t : State} (hf : s.stopFlag = true ∨ s.objectFlag = true)
    (h : execTick s = .next t) :
    (∀ name, t.pidReg name = s.pidReg name) ∧ t.pidTicks = s.pidTicks ∧
    t.displayTicks = s.displayTicks ∧ t.lastRpm = s.lastRpm ∧ t.actPower = s.actPower ∧
    t.potAnswers = s.potAnswers ∧ t.rpmAnswers = s.rpmAnswers := by
  rcases execTick_next_cases h with ⟨-, rfl⟩ | ⟨-, -, rfl⟩ |
    ⟨-, -, -, _, _, -, ⟨-, -, rfl⟩ | ⟨-, -, rfl⟩ | ⟨-, -, rfl⟩ |
      ⟨-, -, _, _, _, -, -, ⟨-, rfl⟩ | ⟨-, _, -, rfl⟩⟩⟩ | ⟨-, hs, ho, -⟩
  case inr.inr.inr => rw [hs, ho] at hf; simp at hf
  all_goals exact ⟨fun name => by cases name <;> rfl, rfl, rfl, rfl, rfl, rfl, rfl⟩

/-- R175: what a TICK makes of the two input flags. -/
theorem execTick_flags {s t : State} (h : execTick s = .next t) :
    t.stopFlag = s.stopFlag ∧
    (t.objectFlag = s.objectFlag ∨
      s.objectFlag = true ∧ t.objectFlag = false ∧ s.stopFlag = false ∧ s.tickEnable = true ∧
        s.measurementComplete = true ∧ s.params.holdTicks ≤ s.holdTicks + 1) := by
  rcases execTick_next_cases h with ⟨-, rfl⟩ | ⟨-, -, rfl⟩ |
    ⟨he, hs, ho, _, _, -, ⟨-, -, rfl⟩ | ⟨hc, hh, rfl⟩ | ⟨-, -, rfl⟩ |
      ⟨-, -, _, _, _, -, -, ⟨-, rfl⟩ | ⟨-, _, -, rfl⟩⟩⟩ |
    ⟨-, -, -, _, _, -, ⟨-, rfl⟩ | ⟨-, _, _, _, _, _, _, _, _, _, _, -, -, -, -, -, -, rfl⟩⟩
  case inr.inr.inl.inr.inl => exact ⟨rfl, .inr ⟨ho, rfl, hs, he, hc, hh⟩⟩
  all_goals exact ⟨rfl, .inl rfl⟩

/-- R145: who writes `mode` and the two input flags. -/
theorem exec_mode_and_flag_writers {i : Instr} {s t : State} (h : exec i s = .next t) :
    (t.mode ≠ s.mode → i = .tick ∨ i = .reset) ∧
    (t.stopFlag ≠ s.stopFlag → i = .stopSet ∨ i = .stopClr ∨ i = .reset) ∧
    (t.objectFlag ≠ s.objectFlag → i = .objSet ∨ i = .objClr ∨ i = .reset ∨
      i = .tick ∧ s.measurementComplete = true ∧ s.params.holdTicks ≤ s.holdTicks + 1) := by
  cases i with
  | tick =>
    obtain ⟨stop, object⟩ := execTick_flags h
    refine ⟨fun _ => .inl rfl, fun changed => absurd stop changed, fun changed => ?_⟩
    rcases object with kept | ⟨-, -, -, -, hc, hh⟩
    · exact absurd kept changed
    · exact .inr (.inr (.inr ⟨rfl, hc, hh⟩))
  | reset => exact ⟨fun _ => .inr rfl, fun _ => .inr (.inr rfl), fun _ => .inr (.inr (.inl rfl))⟩
  | update m => rcases execUpdate_next_cases h with ⟨-, rfl⟩ | ⟨-, x, r, -, -, -, -, rfl⟩ <;> simp
  | init _ _ _ _ | setKp _ | setKi _ | setKd _ | setSp _ | stopSet | stopClr | objSet | objClr =>
    cases h; simp

/-! ## A measurement round (R134, R135) -/

/-- A TICK word at the head of the queue begins a run with a TICK. -/
theorem run_tick_word {s t : State} {rest : List Arrival} (k : Nat)
    (hp : s.pending = .word ⟨0x8#4, []⟩ :: rest)
    (h : execTick { s with pending := rest } = .next t) : core.run (k + 1) s = core.run k t :=
  core_run_succ_of_next core ((step_tick_word hp).trans h)

theorem take_succ_set {m : Memory} {i : Nat} (v : NUM) (h : i < m.length) :
    (m.set i v).take (i + 1) = m.take i ++ [v] := by
  rw [List.take_succ_eq_append_getElem (by simpa using h), List.take_set_of_le le_rfl,
    List.getElem_set_self]

/-- A round in progress over exact numbers: the elements before the index, and the values of the
answers `todo` still to come, are together `samples`; `more` is listed after them. -/
structure InRound (samples : List NUM) (todo more : List DistanceAnswer) (s : State) : Prop where
  exact : s.params.num = .exact
  enabled : s.tickEnable = true
  stop : s.stopFlag = false
  object : s.objectFlag = true
  incomplete : s.measurementComplete = false
  ticks : s.measurementTicks < s.params.measurementRate
  length : s.measurementBuffer.length = s.params.n
  index : s.measurementIndex + todo.length = s.params.n
  answers : s.distanceAnswers = todo ++ more
  contract : ∀ a ∈ todo, distanceContract s.params a = true
  samples : s.measurementBuffer.take s.measurementIndex ++ todo.map (distanceValue s.params) = samples

/-- R135: what a round over exact numbers leaves. -/
structure RoundDone (params : Params) (samples : List NUM) (more : List DistanceAnswer)
    (rest : List Arrival) (t : State) : Prop where
  complete : t.measurementComplete = true
  buffer : t.measurementBuffer = samples
  pass : t.passFlag = decide (params.threshold ≤ samples.sum / (params.n : NUM))
  index : t.measurementIndex = 0
  hold : t.holdTicks = 0
  answers : t.distanceAnswers = more
  pending : t.pending = rest
  stop : t.stopFlag = false
  object : t.objectFlag = true
  mode : t.mode = .objectPresent

section

variable {s : State} {samples : List NUM} {a : DistanceAnswer} {todo more : List DistanceAnswer}
  (rest : List Arrival)

theorem InRound.distanceNext (h : InRound samples (a :: todo) more s) :
    s.DistanceNext a (todo ++ more) s.freeDraws :=
  .inl ⟨h.answers, rfl, h.contract a (by simp)⟩

/-- Between two samples a tick only counts. -/
theorem InRound.between_samples (h : InRound samples (a :: todo) more s)
    (hr : s.measurementTicks + 1 < s.params.measurementRate) :
    ∃ t, execTick { s with pending := rest } = .next t ∧ InRound samples (a :: todo) more t ∧
      t.params = s.params ∧ t.pending = rest ∧ t.measurementTicks = s.measurementTicks + 1 := by
  refine ⟨_, execTick_between_samples h.enabled h.stop h.object h.incomplete hr, ?_, rfl, rfl, rfl⟩
  exact { h with ticks := hr }

/-- A sample that is not the last moves one answer into the buffer. -/
theorem InRound.takes_sample {b : DistanceAnswer} (h : InRound samples (a :: b :: todo) more s)
    (hr : s.params.measurementRate ≤ s.measurementTicks + 1) :
    ∃ t, execTick { s with pending := rest } = .next t ∧ InRound samples (b :: todo) more t ∧
      t.params = s.params ∧ t.pending = rest ∧ t.measurementTicks = 0 := by
  obtain ⟨-, rate_pos, -⟩ := s.params.legal
  have index := h.index
  have length := h.length
  rw [List.length_cons, List.length_cons] at index
  have inside : s.measurementIndex < s.measurementBuffer.length := by omega
  have not_last : s.measurementIndex + 1 ≠ s.params.n := by omega
  refine ⟨_, execTick_takes_sample h.enabled h.stop h.object h.incomplete hr inside not_last
    h.distanceNext, ?_, rfl, rfl, rfl⟩
  exact { h with
    ticks := rate_pos
    length := List.length_set.trans length
    index := by simp only [List.length_cons]; omega
    answers := rfl
    contract := fun c hc => h.contract c (List.mem_cons_of_mem _ hc)
    samples := by simpa [take_succ_set _ inside] using h.samples }

/-- The last sample completes the round. -/
theorem InRound.completes (h : InRound samples [a] more s)
    (hr : s.params.measurementRate ≤ s.measurementTicks + 1) :
    ∃ t, execTick { s with pending := rest } = .next t ∧ RoundDone s.params samples more rest t := by
  have last : s.measurementIndex + 1 = s.params.n := h.index
  have inside : s.measurementIndex < s.measurementBuffer.length := by rw [h.length]; omega
  have filled : s.measurementBuffer.set s.measurementIndex (distanceValue s.params a) = samples := by
    rw [← h.samples, List.map_singleton, ← take_succ_set _ inside, last, List.take_of_length_le]
    rw [List.length_set, h.length]
  have mean : s.params.num.mean s.params.n
      (s.measurementBuffer.set s.measurementIndex (distanceValue s.params a)) =
        some (samples.sum / (s.params.n : NUM)) := by
    rw [filled, h.exact, NumSystem.mean_exact]
  exact ⟨_, execTick_completes_round h.enabled h.stop h.object h.incomplete hr inside last
    h.distanceNext mean, rfl, filled, rfl, rfl, rfl, rfl, rfl, h.stop, h.object, rfl⟩

end

/-- A round whose answers still to come are `a :: todo` completes on the tick of its last sample: by
induction on the number of ticks to it. -/
theorem InRound.run {samples : List NUM} {more : List DistanceAnswer} {rest : List Arrival} (k : Nat)
    {s : State} {a : DistanceAnswer} {todo : List DistanceAnswer}
    (h : InRound samples (a :: todo) more s)
    (hk : k + s.measurementTicks = (todo.length + 1) * s.params.measurementRate)
    (hp : s.pending = List.replicate k (.word ⟨0x8#4, []⟩) ++ rest) :
    ∃ t, core.run k s = .next t ∧ RoundDone s.params samples more rest t := by
  have ticks := h.ticks
  rw [Nat.succ_mul] at hk
  induction k generalizing s a todo with
  | zero => omega
  | succ k ih =>
    by_cases hr : s.measurementTicks + 1 < s.params.measurementRate
    · obtain ⟨u, tick, round, params, pending, counted⟩ := h.between_samples _ hr
      rw [run_tick_word k hp tick, ← params]
      exact ih round (by rw [counted, params]; omega) pending round.ticks
    · cases todo with
      | nil =>
        obtain ⟨t, tick, done⟩ := h.completes _ (not_lt.mp hr)
        rw [List.length_nil, Nat.zero_mul] at hk
        obtain rfl : k = 0 := by omega
        exact ⟨t, run_tick_word 0 hp tick, done⟩
      | cons b todo =>
        obtain ⟨u, tick, round, params, pending, cleared⟩ := h.takes_sample _ (not_lt.mp hr)
        rw [run_tick_word k hp tick, ← params]
        rw [List.length_cons, Nat.succ_mul] at hk
        exact ih round (by rw [cleared, params]; omega) pending round.ticks

/-! ## A hold (R136, R138) -/

/-- `t` is `s` after `k` more ticks of its hold: but for `mode`, the outputs, the display's counter and
the trace, only the hold counter and the queue moved. -/
abbrev HeldFor (s : State) (k : Nat) (rest : List Arrival) (t : State) : Prop :=
  t = { s with
    holdTicks := s.holdTicks + k, pending := rest, mode := t.mode, actEnable := t.actEnable,
    disp := t.disp, objDisplayTicks := t.objDisplayTicks, report := t.report }

theorem State.Holding.counts {s : State} (h : s.Holding)
    (rest : List Arrival) (hh : s.holdTicks + 1 < s.params.holdTicks) :
    ∃ t, execTick { s with pending := rest } = .next t ∧ HeldFor s 1 rest t := by
  refine ⟨_, State.Holding.tick { h with }, ?_⟩
  simp only [HeldFor, if_neg (not_le.mpr hh), decide_eq_false (not_le.mpr hh), Bool.not_false,
    h.complete, h.object]

/-- The tick on which the hold counter reaches `HOLD_TICKS` clears the object condition. -/
theorem State.Holding.expires {s : State} (h : s.Holding) (rest : List Arrival)
    (hh : s.params.holdTicks ≤ s.holdTicks + 1) :
    ∃ t, execTick { s with pending := rest } = .next t ∧ t.objectFlag = false ∧
      t.measurementComplete = false ∧ t.holdTicks = 0 ∧ t.mode = .objectPresent ∧
      t.passFlag = s.passFlag ∧ t.measurementBuffer = s.measurementBuffer ∧
      t.distanceAnswers = s.distanceAnswers ∧ t.pending = rest := by
  refine ⟨_, State.Holding.tick { h with }, ?_⟩
  simp [hh]

theorem State.Holding.of_heldFor {s t : State} {k : Nat} {rest : List Arrival} (h : s.Holding)
    (ht : HeldFor s k rest t) : t.Holding := by
  rw [ht]; exact { h with }

/-- Before `HOLD_TICKS` ticks the hold goes on. -/
theorem State.Holding.run {rest : List Arrival} (k : Nat) {s : State} (h : s.Holding)
    (hk : s.holdTicks + k < s.params.holdTicks)
    (hp : s.pending = List.replicate k (.word ⟨0x8#4, []⟩) ++ rest) :
    ∃ t, core.run k s = .next t ∧ HeldFor s k rest t := by
  induction k generalizing s with
  | zero => exact ⟨s, rfl, by cases s; cases hp; rfl⟩
  | succ k ih =>
    obtain ⟨u, tick, held⟩ := h.counts (List.replicate k (.word ⟨0x8#4, []⟩) ++ rest) (by omega)
    have hu : u.holdTicks + k < u.params.holdTicks := by rw [held]; simp only; omega
    obtain ⟨t, run, ht⟩ := ih (h.of_heldFor held) hu (by rw [held])
    refine ⟨t, (run_tick_word k hp tick).trans run, ?_⟩
    rw [ht, held, HeldFor, Nat.add_assoc, Nat.add_comm 1 k]

end Sys2Proof.Machine

namespace Sys2Proof.Proofs

open Sys2Proof.Machine

/-- Settles O22: `mode` is the branch that the two flags select. -/
theorem oneBranchPerTickByPrecedence : Obligations.OneBranchPerTickByPrecedence := by
  intro s t h
  constructor
  · intro he
    rw [execTick_mode he h]
    cases s.stopFlag <;> cases s.objectFlag <;> simp [branchOf]
  · intro hd
    have ignored := h.symm.trans (execTick_disabled hd)
    cases ignored; rfl

/-- Settles O24: the measurement phase only counts, and the round stays open. -/
theorem objectTickBetweenSamples : Obligations.ObjectTickBetweenSamples :=
  fun _ he hs ho hc hr => execTick_between_samples he hs ho hc hr

/-- Settles O25: the measurement phase takes a sample, and the round stays open. -/
theorem objectTickTakesSample : Obligations.ObjectTickTakesSample :=
  fun _ _ _ _ he hs ho hc hr hi hn hd => execTick_takes_sample he hs ho hc hr hi hn hd

/-- Settles O26: over exact numbers the `Mean` of the filled buffer always answers. -/
theorem objectTickCompletesRound : Obligations.ObjectTickCompletesRound := by
  intro s a rest draws hnum he hs ho hc hr hlen hn hd buffer mean
  have hi : s.measurementIndex < s.measurementBuffer.length := by omega
  have answers : s.params.num.mean s.params.n buffer = some mean := by
    rw [hnum, NumSystem.mean_exact]
  exact execTick_completes_round he hs ho hc hr hi hn hd answers

/-- Settles O28: over exact numbers the `Mean` of the held buffer always answers. -/
theorem objectTickHoldsResult : Obligations.ObjectTickHoldsResult :=
  fun _ hnum he hs ho hc => State.Holding.tick ⟨hnum, he, hs, ho, hc⟩

/-- Settles O30: the PID phase only counts, and the display phase is silent or finds the setpoint
written. -/
theorem runningTickBetweenPidPhases : Obligations.RunningTickBetweenPidPhases := by
  intro s he hs ho silent after
  have phase := pidPhase_of_silent (s := runningStart s) silent
  constructor
  · intro hd
    exact execTick_running_of_phases he hs ho phase (runDisplayPhase_of_silent hd)
  · intro sp hd hsp
    exact execTick_running_of_phases he hs ho phase (runDisplayPhase_of_fires hd hsp)

/-- Settles O31: over exact numbers the firing always answers, and the display phase finds the setpoint
just written. -/
theorem runningTickFiresPidPhase : Obligations.RunningTickFiresPidPhase := by
  intro s kp ki kd acc pe p r pots rpms draws draws' hnum he hs ho fires h1 h2 h3 h5 h6 hp hr
  have phase := (pidPhase_of_fires (s := runningStart s) fires).trans
    (controlLoop_exact hnum h1 h2 h3 h5 h6 hp hr)
  exact execTick_running_of_phases he hs ho phase (runDisplayPhase_of_setpoint rfl)

/-- Settles O33: the UPDATE of a PID phase that fires stops at the first unwritten register of its
list; a display phase that fires alone reads `setpoint`. -/
theorem runningTickBeforeInitFaults : Obligations.RunningTickBeforeInitFaults := by
  intro s he hs ho
  constructor
  · intro name p r product target pots rpms draws draws' fires hp hr ep et unwritten
    have conversion : targetRpm s.params p = .ok target := targetRpm_eq_ok.mpr ⟨product, ep, et⟩
    have update := pidUpdate_unwritten (m := r)
      (updateStart_first_unwritten target r pots rpms draws' unwritten)
    apply execTick_running_fault he hs ho
    rw [runningStart_pidPhase fires hp conversion hr, update, Act.error_bind, Act.error_bind]
  · intro silent hd unwritten
    apply execTick_running_fault he hs ho
    rw [pidPhase_of_silent (by exact silent), Act.ok_bind]
    exact runDisplayPhase_unwritten hd unwritten

/-- Settles O36: in each next state of a delivered TICK, each counter counts, is cleared, or is not
written. -/
theorem tickCountersCount : Obligations.TickCountersCount := by
  intro s t he h
  rcases execTick_next_cases h with ⟨hd, -⟩ | ⟨-, -, rfl⟩ | ⟨-, -, -, _, _, rfl, object⟩ |
    ⟨-, -, -, _, _, rfl, running⟩
  · rw [he] at hd; cases hd
  · simp
  · rcases object with ⟨hc, hh, rfl⟩ | ⟨hc, hh, rfl⟩ | ⟨hc, hm, rfl⟩ |
      ⟨hc, hm, a, rest, draws, -, -, ⟨-, rfl⟩ | ⟨-, mean, -, rfl⟩⟩
    · simp [hc, not_le.mpr hh]
    · simp [hc, hh]
    · simp [hc, not_le.mpr hm]
    · simp [hc, hm]
    · simp [hc, hm]
  · rcases running with ⟨silent, rfl⟩ | ⟨fires, _, _, _, _, _, _, _, _, _, _, -, -, -, -, -, -, rfl⟩
    · simp [not_le.mpr silent]
    · simp [fires]

/-- Settles O37: a set flag shuts out the RUNNING branch, and the other branches write none of
these. -/
theorem pidKeptOutsideRunning : Obligations.PidKeptOutsideRunning :=
  fun _ _ hf h => execTick_keepsPid hf h

/-- Settles O38: `mode` after a delivered TICK is a function of the two flags, so equal flags select
the branch of the tick before again. -/
theorem modeChangesOnlyWithFlags : Obligations.ModeChangesOnlyWithFlags := by
  refine ⟨fun s t u v he h hu hv changed => ?_, fun _ _ _ h => exec_mode_and_flag_writers h⟩
  cases hue : u.tickEnable with
  | false =>
    have ignored := hv.symm.trans (execTick_disabled hue)
    cases ignored
    exact absurd rfl changed
  | true =>
    by_contra same
    push Not at same
    obtain ⟨stop, object⟩ := same
    rw [execTick_mode hue hv, hu, execTick_mode he h, stop, object] at changed
    exact changed rfl

/-- Settles O42: the state is one of a round in progress with all its answers still to come. -/
theorem measurementRoundCompletes : Obligations.MeasurementRoundCompletes := by
  intro s answers more rest hnum inv he hs ho hc hi hm hlen hans contract hp samples
  obtain ⟨-, -, -, n_pos, -⟩ := s.params.legal
  have length : s.measurementBuffer.length = s.params.n := by
    simpa [Memory.wf] using inv.bufferLength
  cases answers with
  | nil => rw [List.length_nil] at hlen; omega
  | cons a todo =>
    have round : InRound samples (a :: todo) more s :=
      { exact := hnum, enabled := he, stop := hs, object := ho, incomplete := hc
        ticks := inv.measurementTicks, length := length, index := by rw [hi, hlen, Nat.zero_add]
        answers := hans, contract := contract
        samples := by rw [hi]; rfl }
    obtain ⟨t, run, done⟩ := round.run _ (by rw [hm, ← hlen]; rfl) hp
    exact ⟨t, run, done.complete, done.buffer, done.pass, done.index, done.hold, done.answers,
      done.pending, done.stop, done.object, done.mode⟩

/-- Settles O43: every tick before the last counts, and the last one expires. -/
theorem holdLastsHoldTicks : Obligations.HoldLastsHoldTicks := by
  intro s rest hnum he hs ho hc hh hp
  have holding : s.Holding := ⟨hnum, he, hs, ho, hc⟩
  have held : ∀ j k, j + k = s.params.holdTicks → 0 < k → ∃ t, core.run j s = .next t ∧
      HeldFor s j (List.replicate k (.word ⟨0x8#4, []⟩) ++ rest) t := by
    intro j k total k_pos
    refine holding.run j (by omega) ?_
    rw [hp, ← total, List.replicate_add, List.append_assoc]
  constructor
  · intro k hk
    obtain ⟨t, run, ht⟩ := held k (s.params.holdTicks - k) (by omega) (by omega)
    exact ⟨t, run, by rw [ht, hh, Nat.zero_add], by rw [ht]; exact ho, by rw [ht]; exact hc⟩
  · obtain ⟨-, -, -, -, hold_pos, -⟩ := s.params.legal
    obtain ⟨t, run, ht⟩ := held (s.params.holdTicks - 1) 1 (by omega) Nat.one_pos
    have due : t.params.holdTicks ≤ t.holdTicks + 1 := by rw [ht]; simp only; omega
    obtain ⟨u, tick, object, complete, hold, mode, pass, buffer, answers, pending⟩ :=
      (holding.of_heldFor ht).expires rest due
    have last : core.run 1 t = .next u := run_tick_word 0 (by rw [ht]; rfl) tick
    have whole := (core_run_add core (k := 1) run).trans last
    rw [Nat.sub_add_cancel hold_pos] at whole
    rw [ht] at pass buffer answers
    exact ⟨u, whole, object, complete, hold, mode, pass, buffer, answers, pending⟩

/-- Settles O21: a TICK that is not delivered only answers. -/
theorem disabledTickIgnored : Obligations.DisabledTickIgnored :=
  fun _ hd => execTick_disabled hd

/-- Settles O23: the branch that a set stop flag selects, as one record update. -/
theorem stoppedTick : Obligations.StoppedTick := by
  intro s he hs
  have branch := stoppedBranch_of_enabled (s := { s.respondOk with mode := .stopped }) he
  exact (execTick_stopped he hs).trans (congrArg _ branch)

end Sys2Proof.Proofs

/-! The collaborators' contracts (R176 to R178), the scheduler's one flag write (R175) and the four flag
operations (R171 to R174). -/

namespace Sys2Proof.Machine

/-! ## Answers outside their contract -/

theorem potRead_refused {s : State} {p : NUM} {rest : List NUM} (hq : s.potAnswers = p :: rest)
    (hp : potContract s.params.num p = false) :
    s.potRead = .error (.refused (.potOutsideContract p)) := by
  simp [State.potRead, hq, hp, refuse]

theorem distanceRead_refused {s : State} {d : NUM} {rest : List DistanceAnswer}
    (hq : s.distanceAnswers = .reading d :: rest)
    (hd : distanceContract s.params (.reading d) = false) :
    s.distanceRead = .error (.refused (.distanceOutsideContract d)) := by
  simp [State.distanceRead, hq, hd, refuse]

theorem potContract_of_outside {num : NumSystem} {p : NUM} (h : p < 0 ∨ 100 < p) :
    potContract num p = false := by
  rcases h with h | h <;> simp [potContract, h]

theorem distanceContract_of_outside {params : Params} {d : NUM}
    (h : d < params.distMin ∨ params.distMax < d) : distanceContract params (.reading d) = false := by
  rcases h with h | h <;> simp [distanceContract, h]

theorem controlLoop_refused {s : State} {p : NUM} {rest : List NUM} (hq : s.potAnswers = p :: rest)
    (hp : potContract s.params.num p = false) :
    s.controlLoop = .error (.refused (.potOutsideContract p)) := by
  have read : ({ s with pidTicks := 0 } : State).potRead =
      .error (.refused (.potOutsideContract p)) := potRead_refused hq hp
  rw [State.controlLoop, read, Act.error_bind]

theorem takeSample_refused {s : State} {d : NUM} {rest : List DistanceAnswer}
    (hq : s.distanceAnswers = .reading d :: rest)
    (hd : distanceContract s.params (.reading d) = false) :
    s.takeSample = .error (.refused (.distanceOutsideContract d)) := by
  have read : ({ s with measurementTicks := 0 } : State).distanceRead =
      .error (.refused (.distanceOutsideContract d)) := distanceRead_refused hq hd
  rw [State.takeSample, read, Act.error_bind]

/-- R178, U7: a PID phase that fires on an answer outside the contract refuses the whole TICK. -/
theorem execTick_pot_refused {s : State} {p : NUM} {rest : List NUM} (he : s.tickEnable = true)
    (hs : s.stopFlag = false) (ho : s.objectFlag = false) (fires : s.params.pidRate ≤ s.pidTicks + 1)
    (hq : s.potAnswers = p :: rest) (hp : potContract s.params.num p = false) :
    execTick s = .refused (.potOutsideContract p) := by
  have phase : (runningStart s).pidPhase = .error (.refused (.potOutsideContract p)) :=
    (pidPhase_of_fires (s := runningStart s) fires).trans (controlLoop_refused hq hp)
  have branch : ({ s.respondOk with mode := .running } : State).runningBranch =
      (runningStart s).pidPhase >>= State.runDisplayPhase := rfl
  rw [execTick_running he hs ho, finish_eq_refused, branch, phase, Act.error_bind]

/-- R176 (log entry 5): likewise a measurement phase that samples. -/
theorem execTick_distance_refused {s : State} {d : NUM} {rest : List DistanceAnswer}
    (he : s.tickEnable = true) (hs : s.stopFlag = false) (ho : s.objectFlag = true)
    (hc : s.measurementComplete = false) (hr : s.params.measurementRate ≤ s.measurementTicks + 1)
    (hq : s.distanceAnswers = .reading d :: rest)
    (hd : distanceContract s.params (.reading d) = false) :
    execTick s = .refused (.distanceOutsideContract d) := by
  have incomplete : ¬ (objectStart s).measurementComplete = true := by
    simp [objectStart, State.respondOk, hc]
  have phase : (objectStart s).measureOrHold = .error (.refused (.distanceOutsideContract d)) :=
    (if_neg incomplete).trans ((if_pos hr).trans (takeSample_refused hq hd))
  have branch : ({ s.respondOk with mode := .objectPresent } : State).objectBranch =
      (objectStart s).measureOrHold >>= fun u => u.objectDisplayPhase >>= fun v =>
        .ok v.holdExpiry := rfl
  rw [execTick_object he hs ho, finish_eq_refused, branch, phase, Act.error_bind]

/-! ## Answers the block goes on with, listed or free -/

theorem potContract_eq_true_iff {num : NumSystem} {p : NUM} :
    potContract num p = true ↔ num.holds p = true ∧ 0 ≤ p ∧ p ≤ 100 := by
  simp [potContract, and_assoc]

theorem potNext_contract {s : State} {p : NUM} {rest : List NUM} {draws : Nat}
    (h : s.PotNext p rest draws) : potContract s.params.num p = true := by
  rcases h with ⟨-, -, listed⟩ | ⟨-, -, -, rfl⟩
  · exact listed
  · have percent : (0 : NUM) ≤ 100 := by norm_num
    exact potContract_eq_true_iff.mpr ⟨NumSystem.holds_into s.params.holds_zero _,
      NumSystem.into_percentage s.params.holds_zero (le_clamp percent) (clamp_le percent)⟩

theorem rpmNext_holds {s : State} {before draws : Nat} {r : NUM} {rest : List NUM}
    (h : s.RpmNext before r rest draws) : s.params.num.holds r = true := by
  rcases h with ⟨-, -, listed⟩ | ⟨-, -, -, rfl⟩
  · exact listed
  · exact NumSystem.holds_into s.params.holds_zero _

theorem distanceValue_of_contract {params : Params} {a : DistanceAnswer}
    (h : distanceContract params a = true) : distanceValue params a = params.errorSentinel ∨
      params.distMin ≤ distanceValue params a ∧ distanceValue params a ≤ params.distMax := by
  cases a with
  | timeout => exact .inl rfl
  | reading d => exact .inr (by simpa [distanceContract, distanceValue] using h)

end Sys2Proof.Machine

namespace Sys2Proof.Proofs

open Sys2Proof.Machine

/-- Settles O34: the read refuses the answer, and the refusal abandons the phase and its branch. -/
theorem answersOutsideContractRefused : Obligations.AnswersOutsideContractRefused := by
  intro s he hs
  constructor
  · intro p rest ho fires hq outside
    exact execTick_pot_refused he hs ho fires hq (potContract_of_outside outside)
  · intro d rest ho hc hr hq outside
    exact execTick_distance_refused he hs ho hc hr hq (distanceContract_of_outside outside)

/-- Settles O35: a listed answer has passed its check, and a free one is brought into the contract. -/
theorem answersUsedMeetContract : Obligations.AnswersUsedMeetContract := by
  intro s t v
  refine ⟨fun h => ?_, fun h => ?_, fun h => ?_⟩
  · obtain ⟨rest, draws, next, -⟩ := potRead_eq_ok.mp h
    exact potContract_eq_true_iff.mp (potNext_contract next)
  · obtain ⟨rest, draws, next, -⟩ := rpmRead_eq_ok.mp h
    exact rpmNext_holds next
  · obtain ⟨a, rest, draws, next, rfl, -⟩ := distanceRead_eq_ok.mp h
    exact distanceValue_of_contract (distanceNext_contract next)

/-- Settles O39: of a TICK's next states only a hold that expires has another flag. -/
theorem schedulerWritesFlagOnlyAtHoldExpiry : Obligations.SchedulerWritesFlagOnlyAtHoldExpiry :=
  fun _ _ h => execTick_flags h

/-- Settles O44: each of the four is one record update of one flag and the report. -/
theorem flagOperationsWriteOneFlag : Obligations.FlagOperationsWriteOneFlag :=
  fun _ => ⟨⟨rfl, rfl⟩, ⟨rfl, rfl⟩, ⟨rfl, rfl⟩, rfl, rfl⟩

end Sys2Proof.Proofs

/-! Where an operation stops and where none does (60_exceptions.md): a TICK whose setpoint conversion or
`Mean` overflows, and the block after INIT over exact numbers, which nothing stops. -/

namespace Sys2Proof.Machine

/-! ## A TICK that overflows outside UPDATE (R113, R195) -/

theorem orOverflow_of_leaves {num : NumSystem} {op : ArithOp} {a b : NUM} (h : num.Leaves op a b) :
    orOverflow (num.arith op a b) = .error (.fault .numOverflow) := by
  rw [NumSystem.arith_eq_none_iff.mpr h]; rfl

/-- R140: the product of the percentage and `MAX_RPM` overflows before the rotation sensor is read. -/
theorem controlLoop_overflow {s : State} {p : NUM} {pots : List NUM} {draws : Nat}
    (hp : s.PotNext p pots draws) (leaves : s.params.num.Leaves .mul p s.params.maxRpm) :
    s.controlLoop = .error (.fault .numOverflow) := by
  have read := (potRead_eq_ok (s := { s with pidTicks := 0 })).mpr ⟨pots, draws, hp, rfl⟩
  have conversion : targetRpm s.params p = .error (.fault .numOverflow) := by
    rw [targetRpm, NumSystem.mul, orOverflow_of_leaves leaves, Act.error_bind]
  rw [State.controlLoop, read, Act.ok_bind]
  dsimp only
  rw [conversion, Act.error_bind]

/-- A fault in the measurement or the display phase abandons the OBJECT_PRESENT tick (R201). -/
theorem execTick_object_fault {s : State} {f : Fault} (he : s.tickEnable = true)
    (hs : s.stopFlag = false) (ho : s.objectFlag = true)
    (h : ((objectStart s).measureOrHold >>= State.objectDisplayPhase) = .error (.fault f)) :
    execTick s = .fault f := by
  have branch : ({ s.respondOk with mode := .objectPresent } : State).objectBranch =
      (objectStart s).measureOrHold >>= fun u => u.objectDisplayPhase >>= fun v =>
        .ok v.holdExpiry := rfl
  rw [execTick_object he hs ho, finish_eq_fault, branch, ← bind_assoc, h, Act.error_bind]

/-- R134, R135: the sample that fills the buffer stops where the `Mean` of the filled buffer does. -/
theorem takeSample_overflow {s : State} {a : DistanceAnswer} {rest : List DistanceAnswer}
    {draws : Nat} (hi : s.measurementIndex < s.measurementBuffer.length)
    (hn : s.measurementIndex + 1 = s.params.n) (hd : s.DistanceNext a rest draws)
    (hm : s.params.num.mean s.params.n
      (s.measurementBuffer.set s.measurementIndex (distanceValue s.params a)) = none) :
    s.takeSample = .error (.fault .numOverflow) := by
  have read := (distanceRead_eq_ok (s := { s with measurementTicks := 0 })).mpr
    ⟨a, rest, draws, hd, rfl, rfl⟩
  have write : memWrite s.measurementBuffer s.measurementIndex (distanceValue s.params a) = .ok _ :=
    memWrite_eq_ok.mpr ⟨hi, rfl⟩
  rw [State.takeSample, read, Act.ok_bind]
  dsimp only
  rw [write, Act.ok_bind, if_pos (by exact hn), State.completeRound]
  dsimp only
  rw [hm]
  rfl

theorem measureOrHold_of_due {s : State} (hc : s.measurementComplete = false)
    (hr : s.params.measurementRate ≤ s.measurementTicks + 1) : s.measureOrHold = s.takeSample := by
  rw [State.measureOrHold, hc]
  exact if_pos hr

/-- R133, R135: the tick whose sample fills the buffer, when `Mean` overflows. -/
theorem execTick_completes_round_overflow {s : State} {a : DistanceAnswer}
    {rest : List DistanceAnswer} {draws : Nat} (he : s.tickEnable = true) (hs : s.stopFlag = false)
    (ho : s.objectFlag = true) (hc : s.measurementComplete = false)
    (hr : s.params.measurementRate ≤ s.measurementTicks + 1)
    (hi : s.measurementIndex < s.measurementBuffer.length)
    (hn : s.measurementIndex + 1 = s.params.n) (hd : s.DistanceNext a rest draws)
    (hm : s.params.num.mean s.params.n
      (s.measurementBuffer.set s.measurementIndex (distanceValue s.params a)) = none) :
    execTick s = .fault .numOverflow := by
  have phase : (objectStart s).measureOrHold = .error (.fault .numOverflow) :=
    (measureOrHold_of_due (s := objectStart s) hc hr).trans (takeSample_overflow hi hn hd hm)
  apply execTick_object_fault he hs ho
  rw [phase, Act.error_bind]

/-- R137: a display phase that fires on a completed round, when `Mean` overflows. -/
theorem objectDisplayPhase_overflow {s : State} (hc : s.measurementComplete = true)
    (fires : s.params.displayRate / 2 ≤ s.objDisplayTicks + 1)
    (hm : s.params.num.mean s.params.n s.measurementBuffer = none) :
    s.objectDisplayPhase = .error (.fault .numOverflow) := by
  have frame : ({ s with objDisplayTicks := s.objDisplayTicks + 1 } : State).objectFrame =
      .error (.fault .numOverflow) := by
    rw [State.objectFrame, if_pos (by exact hc)]
    dsimp only
    rw [hm]
    rfl
  rw [State.objectDisplayPhase, if_pos (by exact fires), frame, Act.error_bind]

/-! ## What is left of the listed answers (R176 to R178) -/

/-- The answers listed in `t` are the last ones of those listed in `s`. -/
structure State.LeavesAnswers (s t : State) : Prop where
  pot : t.potAnswers <:+ s.potAnswers
  rpm : t.rpmAnswers <:+ s.rpmAnswers
  distance : t.distanceAnswers <:+ s.distanceAnswers

theorem State.LeavesAnswers.refl (s : State) : s.LeavesAnswers s :=
  ⟨List.suffix_rfl, List.suffix_rfl, List.suffix_rfl⟩

/-- A read leaves the tail of what is listed, or had a free answer when nothing was. -/
theorem suffix_of_cons_or_nil {α : Type} {listed rest : List α} {a : α}
    (h : listed = a :: rest ∨ rest = []) : rest <:+ listed := by
  rcases h with rfl | rfl
  · exact List.suffix_cons a rest
  · exact List.nil_suffix

theorem potNext_suffix {s : State} {p : NUM} {rest : List NUM} {draws : Nat}
    (h : s.PotNext p rest draws) : rest <:+ s.potAnswers :=
  suffix_of_cons_or_nil (Or.imp (fun ⟨listed, _⟩ => listed) (fun ⟨_, none_left, _⟩ => none_left) h)

theorem rpmNext_suffix {s : State} {before draws : Nat} {r : NUM} {rest : List NUM}
    (h : s.RpmNext before r rest draws) : rest <:+ s.rpmAnswers :=
  suffix_of_cons_or_nil (Or.imp (fun ⟨listed, _⟩ => listed) (fun ⟨_, none_left, _⟩ => none_left) h)

theorem distanceNext_suffix {s : State} {a : DistanceAnswer} {rest : List DistanceAnswer}
    {draws : Nat} (h : s.DistanceNext a rest draws) : rest <:+ s.distanceAnswers :=
  suffix_of_cons_or_nil (Or.imp (fun ⟨listed, _⟩ => listed) (fun ⟨_, none_left, _⟩ => none_left) h)

/-- A TICK reads each list from its head on, if at all. -/
theorem execTick_leavesAnswers {s t : State} (h : execTick s = .next t) : s.LeavesAnswers t := by
  have kept := State.LeavesAnswers.refl s
  rcases execTick_next_cases h with ⟨-, rfl⟩ | ⟨-, -, rfl⟩ |
    ⟨-, -, -, _, _, -, ⟨-, -, rfl⟩ | ⟨-, -, rfl⟩ | ⟨-, -, rfl⟩ |
      ⟨-, -, _, _, _, sample, -, ⟨-, rfl⟩ | ⟨-, _, -, rfl⟩⟩⟩ |
    ⟨-, -, -, _, _, -, ⟨-, rfl⟩ | ⟨-, _, _, _, _, _, _, _, _, _, _, pot, rpm, -, -, -, -, rfl⟩⟩
  case inr.inr.inl.inr.inr.inr.inl | inr.inr.inl.inr.inr.inr.inr =>
    exact { kept with distance := distanceNext_suffix sample }
  case inr.inr.inr.inr => exact { kept with pot := potNext_suffix pot, rpm := rpmNext_suffix rpm }
  all_goals exact { kept with }

theorem exec_leavesAnswers {i : Instr} {s t : State} (h : exec i s = .next t) :
    s.LeavesAnswers t := by
  by_cases ht : i = .tick
  · subst ht; exact execTick_leavesAnswers h
  · by_cases hr : i = .reset
    · subst hr; rw [exec_reset_next h]; exact { State.LeavesAnswers.refl s with }
    · rw [exec_keepsScheduler h ht hr]; exact { State.LeavesAnswers.refl s with }

theorem State.AnswersInContract.of_leaves {s t : State} (hs : s.AnswersInContract)
    (params : t.params = s.params) (h : s.LeavesAnswers t) : t.AnswersInContract where
  pot p hp := by rw [params]; exact hs.pot p (h.pot.subset hp)
  rpm r hr := by rw [params]; exact hs.rpm r (h.rpm.subset hr)
  distance a ha := by rw [params]; exact hs.distance a (h.distance.subset ha)

/-! ## Safe states stay safe -/

theorem exec_initialised {i : Instr} {s t : State} (h : exec i s = .next t) (hr : i ≠ .reset)
    (hs : s.Initialised) : t.Initialised := by
  intro name
  rcases exec_pidReg_cases h hr name with kept | written
  · rw [kept]; exact hs name
  · exact written

theorem exec_safe {i : Instr} {s t : State} (h : exec i s = .next t) (hr : i ≠ .reset)
    (hs : s.Safe) : t.Safe where
  exact := by rw [exec_params h]; exact hs.exact
  scheduler := exec_schedulerInv h hs.scheduler
  initialised := exec_initialised h hr hs.initialised
  answers := hs.answers.of_leaves (exec_params h) (exec_leavesAnswers h)

/-- What is safe depends on neither the queue nor the trace. -/
theorem State.Safe.with_pending_report {s : State} (hs : s.Safe) (rest : List Arrival)
    (report : Report) : ({ s with pending := rest, report := report } : State).Safe :=
  ⟨hs.exact, { hs.scheduler with }, hs.initialised, { hs.answers with }⟩

theorem State.Safe.with_pending {s : State} (hs : s.Safe) (rest : List Arrival) :
    ({ s with pending := rest } : State).Safe :=
  hs.with_pending_report rest s.report

/-! ## Safe states have a next state -/

section
variable {s : State} (hs : s.Safe)
include hs

/-- Whatever is listed, the setpoint input has an answer: the next listed one, or a free one. -/
theorem State.Safe.exists_potNext : ∃ p rest draws, s.PotNext p rest draws := by
  cases listed : s.potAnswers with
  | nil => exact ⟨_, [], _, .inr ⟨listed, rfl, rfl, rfl⟩⟩
  | cons p rest =>
    exact ⟨p, rest, _, .inl ⟨listed, rfl, hs.answers.pot p (listed ▸ List.mem_cons_self)⟩⟩

theorem State.Safe.exists_rpmNext (before : Nat) : ∃ r rest draws, s.RpmNext before r rest draws := by
  cases listed : s.rpmAnswers with
  | nil => exact ⟨_, [], _, .inr ⟨listed, rfl, rfl, rfl⟩⟩
  | cons r rest =>
    exact ⟨r, rest, _, .inl ⟨listed, rfl, hs.answers.rpm r (listed ▸ List.mem_cons_self)⟩⟩

theorem State.Safe.exists_distanceNext : ∃ a rest draws, s.DistanceNext a rest draws := by
  cases listed : s.distanceAnswers with
  | nil => exact ⟨_, [], _, .inr ⟨listed, rfl, rfl, rfl⟩⟩
  | cons a rest =>
    exact ⟨a, rest, _, .inl ⟨listed, rfl, hs.answers.distance a (listed ▸ List.mem_cons_self)⟩⟩

/-- An OBJECT_PRESENT tick holds, counts, samples, or completes its round: R47 keeps the index inside
the buffer, and `Mean` answers. -/
theorem State.Safe.object_tick (he : s.tickEnable = true) (hstop : s.stopFlag = false)
    (ho : s.objectFlag = true) : ∃ t, execTick s = .next t := by
  cases hc : s.measurementComplete with
  | true => exact ⟨_, State.Holding.tick ⟨hs.exact, he, hstop, ho, hc⟩⟩
  | false =>
    by_cases hr : s.params.measurementRate ≤ s.measurementTicks + 1
    · obtain ⟨a, rest, draws, hd⟩ := hs.exists_distanceNext
      obtain ⟨-, -, -, n_pos, -⟩ := s.params.legal
      have length : s.measurementBuffer.length = s.params.n := by
        simpa [Memory.wf] using hs.scheduler.bufferLength
      have index := hs.scheduler.index
      have inside : s.measurementIndex < s.measurementBuffer.length := by omega
      by_cases hn : s.measurementIndex + 1 = s.params.n
      · have mean := NumSystem.mean_exact s.params.n
          (s.measurementBuffer.set s.measurementIndex (distanceValue s.params a))
        rw [← hs.exact] at mean
        exact ⟨_, execTick_completes_round he hstop ho hc hr inside hn hd mean⟩
      · exact ⟨_, execTick_takes_sample he hstop ho hc hr inside hn hd⟩
    · exact ⟨_, execTick_between_samples he hstop ho hc (not_le.mp hr)⟩

/-- A RUNNING tick finds all six registers written, and its setpoint conversion and UPDATE answer. -/
theorem State.Safe.running_tick (he : s.tickEnable = true) (hstop : s.stopFlag = false)
    (ho : s.objectFlag = false) : ∃ t, execTick s = .next t := by
  obtain ⟨kp, ki, kd, sp, acc, pe, h1, h2, h3, h4, h5, h6⟩ := initialised_values hs.initialised
  by_cases fires : s.params.pidRate ≤ s.pidTicks + 1
  · obtain ⟨p, pots, draws, hp⟩ := hs.exists_potNext
    obtain ⟨r, rpms, draws', hr⟩ := hs.exists_rpmNext draws
    have phase := (pidPhase_of_fires (s := runningStart s) fires).trans
      (controlLoop_exact hs.exact h1 h2 h3 h5 h6 hp hr)
    exact ⟨_, execTick_running_of_phases he hstop ho phase (runDisplayPhase_of_setpoint rfl)⟩
  · have phase := pidPhase_of_silent (s := runningStart s) (not_le.mp fires)
    exact ⟨_, execTick_running_of_phases he hstop ho phase
      (runDisplayPhase_of_setpoint (by exact h4))⟩

theorem State.Safe.tick : ∃ t, execTick s = .next t := by
  cases he : s.tickEnable with
  | false => exact ⟨_, execTick_disabled he⟩
  | true =>
    cases hstop : s.stopFlag with
    | true => exact ⟨_, execTick_stopped he hstop⟩
    | false =>
      cases ho : s.objectFlag with
      | true => exact hs.object_tick he hstop ho
      | false => exact hs.running_tick he hstop ho

theorem State.Safe.update (m : NUM) : ∃ t, execUpdate m s = .next t := by
  cases alone : s.params.standalonePid with
  | false => exact ⟨_, execUpdate_of_assembled m alone⟩
  | true =>
    obtain ⟨kp, ki, kd, sp, acc, pe, h1, h2, h3, h4, h5, h6⟩ := initialised_values hs.initialised
    exact ⟨_, execUpdate_of_pidUpdate alone (pidUpdate_exact hs.exact h1 h2 h3 h4 h5 h6)⟩

theorem State.Safe.exec (i : Instr) : ∃ t, exec i s = .next t := by
  cases i with
  | tick => exact hs.tick
  | update m => exact hs.update m
  | init _ _ _ _ | setKp _ | setKi _ | setKd _ | setSp _ | stopSet | stopClr | objSet | objClr
  | reset => exact ⟨_, rfl⟩

theorem State.Safe.step : ∃ t, step s = .next t := by
  cases hp : s.pending with
  | nil => exact ⟨s, by simp only [Machine.step, hp]⟩
  | cons arrival rest =>
    cases hd : decodeArrival s.params.num arrival with
    | error r => exact ⟨_, step_of_decodeArrival_error hp hd⟩
    | ok i => rw [step_of_decodeArrival_ok hp hd]; exact (hs.with_pending rest).exec i

end

end Sys2Proof.Machine

namespace Sys2Proof.Proofs

open Sys2Proof.Machine

/-- Settles O54: in a safe state every read is answered and every operation has its operands, and an
operation other than RESET keeps each condition of safety. -/
theorem initialisedBlockNeverStops : Obligations.InitialisedBlockNeverStops := by
  refine fun s hs => ⟨hs.step, fun t h no_reset => ?_⟩
  rcases step_next_cases h with ⟨-, rfl⟩ | ⟨arrival, rest, hp, ⟨r, -, rfl⟩ | ⟨i, hd, hi⟩⟩
  · exact hs
  · exact hs.with_pending_report rest _
  · have other : i ≠ .reset := fun e => no_reset arrival rest hp (e ▸ hd)
    exact exec_safe hi other (hs.with_pending rest)

/-- Settles O20: the first computation that overflows abandons its phase, and the phase the tick. -/
theorem tickOverflowFaults : Obligations.TickOverflowFaults := by
  intro s he hs
  refine ⟨?_, ?_, ?_⟩
  · intro p pots draws ho fires hp leaves
    have phase := (pidPhase_of_fires (s := runningStart s) fires).trans
      (controlLoop_overflow hp leaves)
    exact (execTick_running_eq_numOverflow_iff he hs ho).mpr phase
  · intro a rest draws done more total y ho hc hr hlen hn hd filled hsum leaves
    have hi : s.measurementIndex < s.measurementBuffer.length := by omega
    have mean := hsum.mean_eq_none more s.params.n leaves
    rw [← filled] at mean
    exact execTick_completes_round_overflow he hs ho hc hr hi hn hd mean
  · intro done more total y ho hc fires held hsum leaves
    have mean := hsum.mean_eq_none more s.params.n leaves
    rw [← held] at mean
    have hold : (objectStart s).measureOrHold = .ok (heldState s) :=
      measureOrHold_eq_ok.mpr (.inl ⟨hc, rfl⟩)
    apply execTick_object_fault he hs ho
    rw [hold, Act.ok_bind]
    exact objectDisplayPhase_overflow hc fires mean

end Sys2Proof.Proofs

/-! The block between operations (R221) and the latency of a stop request (R233). -/

namespace Sys2Proof.Machine

theorem step_of_pending_nil {s : State} (h : s.pending = []) : step s = .next s := by
  simp only [step, h]

end Sys2Proof.Machine

namespace Sys2Proof.Proofs

open Sys2Proof.Machine

/-- Settles O45: STOP_SET writes the flag and the report alone, so `tick_enable` is still 1 and the
TICK after it is the STOPPED tick of R132, which writes neither the power level nor a flag. -/
theorem stopRequestActsAtNextTick : Obligations.StopRequestActsAtNextTick := by
  intro s enabled
  obtain ⟨⟨-, request⟩, -⟩ := flagOperationsWriteOneFlag s
  have tick := stoppedTick { s with stopFlag := true, report := ⟨.ok, []⟩ } enabled rfl
  exact ⟨_, _, request, rfl, rfl, tick, rfl, rfl, rfl, rfl⟩

/-- Settles O8: the step takes the branch of an empty queue. -/
theorem stepWaitsWithNothingPending : Obligations.StepWaitsWithNothingPending :=
  fun _ nothing => step_of_pending_nil nothing

end Sys2Proof.Proofs
